-- ==== Sys2Proof/Word.lean ====
section
/-!
DEFINITION. The word types of the machine (00_scope.md R8) and the operand fields of a coprocessor-2
command word (30_encoding.md R130).
-/

namespace Sys2Proof

/-- A processor word, an address, a register's contents: 32 bits (00_scope.md R6, XLEN). -/
abbrev Word := BitVec 32

/-- A halfword; also one VRAM pixel (47_gpu_commands.md R438). -/
abbrev Half := BitVec 16

/-- The smallest addressable unit (20_memory.md R70). -/
abbrev Byte := BitVec 8

/-- A register number (30_encoding.md R122). -/
abbrev RegNum := BitVec 5

/-- Bits 24:6 of a coprocessor-2 command word, field by field (30_encoding.md R130). The ignored fields
are kept so that no bit of an encoding is dropped. -/
structure GteArgs where
  /-- bits 24:20, ignored by the hardware -/
  ign5 : BitVec 5
  /-- bit 19: shift the 44-bit results right by 12 -/
  sf : Bool
  /-- bits 18:17: the matrix of MVMVA -/
  mx : BitVec 2
  /-- bits 16:15: the vector of MVMVA -/
  v : BitVec 2
  /-- bits 14:13: the translation of MVMVA -/
  cv : BitVec 2
  /-- bits 12:11, ignored -/
  ign2 : BitVec 2
  /-- bit 10: saturate IR1..IR3 to 0..0x7FFF -/
  lm : Bool
  /-- bits 9:6, ignored -/
  ign4 : BitVec 4
  deriving DecidableEq, Repr

end Sys2Proof
end

