-- ==== Sys2Proof/Config.lean ====
section
/-!
DEFINITION. The configuration of 00_scope.md R6: the constants with a fixed default, the parameters that
select a behaviour, and the free values (constants without a body, of which nothing can be proved) for
what the spec calls OPEN, unspecified or a draw.
-/

namespace Sys2Proof

/-- What an undecodable processor word does (10_state.md R44). -/
inductive UndecodablePolicy where
  | halt
  | reservedInstruction
  deriving DecidableEq, Repr

/-- Who wins when the delay-slot instruction writes the pending load's register (10_state.md R42). -/
inductive LoadCollision where
  | loadWins
  | laterWriteWins
  deriving DecidableEq, Repr

/-- The rasteriser's interpolation INTERP (47_gpu_commands.md R474): the default barycentric floor, or any
function that satisfies the rule's three constraints. -/
inductive Interp where
  | barycentric
  | free
  deriving DecidableEq, Repr

/-- Where the results of a division corner come from: the default table, or an uninterpreted function of the
operands (41_muldiv.md R204, R205). -/
inductive DivCorner where
  | table
  | free
  deriving DecidableEq, Repr

/-- The parameters of 00_scope.md R6 that a machine is built with. No step changes them. Quantities that
are at least 1 are kept as their predecessor. -/
structure Params where
  undecodable : UndecodablePolicy
  collision : LoadCollision
  divCorner : DivCorner
  /-- CPI - 1 -/
  cpiPred : Nat
  /-- DISC_DELAY.ack - 1 -/
  ackPred : Nat
  /-- DISC_DELAY.done - 1 -/
  donePred : Nat
  /-- DISC_DELAY.seek - 1 -/
  seekPred : Nat
  /-- DISC_DELAY.read - 1 -/
  readPred : Nat
  interp : Interp
  /-- DMA_LL_STEP_CAP -/
  llCap : Nat
  prid : Word
  /-- DISC_REGION, four ASCII bytes -/
  region : BitVec 8 × BitVec 8 × BitVec 8 × BitVec 8
  deriving DecidableEq, Repr

namespace Config

/-- RESET_PC (00_scope.md R6, 70_reset_and_hazards.md R672). -/
def resetPc : Word := 0xBFC00000#32

/-- VEC_RAM, the vector with SR.BEV = 0 (60_exceptions.md R611). -/
def vecRam : Word := 0x80000080#32

/-- VEC_ROM, the vector with SR.BEV = 1 (60_exceptions.md R611). -/
def vecRom : Word := 0xBFC00180#32

/-- TTY_SINK (20_memory.md R89). -/
def ttySink : Word := 0x1F802023#32

/-- SECTOR_RAW, the bytes of a raw sector (00_scope.md R6). -/
def sectorRaw : Nat := 2352

/-- The free value of CPI - 1 (OPEN, 70_reset_and_hazards.md R681). -/
opaque cpiPred : Nat

/-- The free values of DISC_DELAY.ack, .done, .seek and .read, each less 1 (OPEN, 48_cdrom_commands.md
R513). -/
opaque ackPred : Nat
opaque donePred : Nat
opaque seekPred : Nat
opaque readPred : Nat

/-- The byte an address of RAM, scratchpad or ROM holds before anything is written to it: unspecified
RAM (10_state.md R64), or the firmware image the host has supplied. -/
opaque resetByte : Nat → BitVec 8

/-- The pixel a VRAM cell holds before anything is written to it (10_state.md R64). -/
opaque resetPixel : Nat → BitVec 16

/-- The dot-clock ticks of invocation n (70_reset_and_hazards.md R682). -/
opaque dotTicks : Nat → Nat

/-- The horizontal-blank ticks of invocation n (70_reset_and_hazards.md R682). -/
opaque hblankTicks : Nat → Nat

/-- Whether invocation n has a vertical-blank tick (70_reset_and_hazards.md R682). -/
opaque vblankTick : Nat → Bool

/-- The unconstrained part of INTERP (47_gpu_commands.md R474): weights, then the three attributes. -/
opaque rawInterp : Int → Int → Int → Nat → Nat → Nat → Nat

/-- The unconstrained part of INTERP along a shaded line (93_implementation_defined.md U18): step, number of
steps, the two ends of the channel. -/
opaque rawLine : Nat → Nat → Nat → Nat → Nat

/-- Whether the far-colour clamp of MVMVA takes the low 32 bits of its value or the whole of it
(46_gte_commands.md R387 and 45_gte_state_arith.md R342 do not say). -/
opaque farClampCuts : Bool

/-- The three bytes `msf` gives for an address that lies before minute 0 (48_cdrom_commands.md R516 states
none). -/
opaque msfBefore : Int → BitVec 8 × BitVec 8 × BitVec 8

/-- The byte `tobcd` gives for a number that has no two-digit BCD form (48_cdrom_commands.md R516 states
none). -/
opaque bcdOutOfRange : Int → BitVec 8

/-- DIV_CORNER as an uninterpreted function (41_muldiv.md R204): (hi, lo) from the two operands of DIV. -/
opaque divCorner : Word → Word → Word × Word

/-- The same for DIVU (R205). -/
opaque divuCorner : Word → Word → Word × Word

/-- The parameters of the machine after reset: the defaults of 00_scope.md R6, and free values for what it
calls OPEN. -/
def params : Params where
  undecodable := .halt
  collision := .loadWins
  divCorner := .table
  cpiPred := cpiPred
  ackPred := ackPred
  donePred := donePred
  seekPred := seekPred
  readPred := readPred
  interp := .free
  llCap := 524288
  prid := 0x00000002#32
  region := (0x53#8, 0x43#8, 0x45#8, 0x41#8)

end Config

end Sys2Proof
end

