-- ==== Sys2Proof/Syntax.lean ====
section
/-!
DEFINITION. The abstract syntax: one constructor per row of spec/opcode_table.json. A register operand
stands under the name of its field (rd, rs, rt of 30_encoding.md R121). A GP0 command carries all its
words: the options of the command byte, bits 23:0 of the first word, then the further words. A disc
command is its byte alone: its parameters are waiting in the parameter FIFO (48_cdrom_commands.md R514).
-/

namespace Sys2Proof

inductive Instr where
  -- 40_alu.md
  | add (rd rs rt : RegNum)
  | addu (rd rs rt : RegNum)
  | sub (rd rs rt : RegNum)
  | subu (rd rs rt : RegNum)
  | and (rd rs rt : RegNum)
  | or (rd rs rt : RegNum)
  | xor (rd rs rt : RegNum)
  | nor (rd rs rt : RegNum)
  | slt (rd rs rt : RegNum)
  | sltu (rd rs rt : RegNum)
  | addi (rt rs : RegNum) (imm : BitVec 16)
  | addiu (rt rs : RegNum) (imm : BitVec 16)
  | slti (rt rs : RegNum) (imm : BitVec 16)
  | sltiu (rt rs : RegNum) (imm : BitVec 16)
  | andi (rt rs : RegNum) (imm : BitVec 16)
  | ori (rt rs : RegNum) (imm : BitVec 16)
  | xori (rt rs : RegNum) (imm : BitVec 16)
  | lui (rt : RegNum) (imm : BitVec 16)
  | sll (rd rt : RegNum) (shamt : BitVec 5)
  | srl (rd rt : RegNum) (shamt : BitVec 5)
  | sra (rd rt : RegNum) (shamt : BitVec 5)
  | sllv (rd rt rs : RegNum)
  | srlv (rd rt rs : RegNum)
  | srav (rd rt rs : RegNum)
  -- 41_muldiv.md
  | mult (rs rt : RegNum)
  | multu (rs rt : RegNum)
  | div (rs rt : RegNum)
  | divu (rs rt : RegNum)
  | mfhi (rd : RegNum)
  | mflo (rd : RegNum)
  | mthi (rs : RegNum)
  | mtlo (rs : RegNum)
  -- 42_loadstore.md
  | lb (rt rs : RegNum) (imm : BitVec 16)
  | lbu (rt rs : RegNum) (imm : BitVec 16)
  | lh (rt rs : RegNum) (imm : BitVec 16)
  | lhu (rt rs : RegNum) (imm : BitVec 16)
  | lw (rt rs : RegNum) (imm : BitVec 16)
  | lwl (rt rs : RegNum) (imm : BitVec 16)
  | lwr (rt rs : RegNum) (imm : BitVec 16)
  | sb (rt rs : RegNum) (imm : BitVec 16)
  | sh (rt rs : RegNum) (imm : BitVec 16)
  | sw (rt rs : RegNum) (imm : BitVec 16)
  | swl (rt rs : RegNum) (imm : BitVec 16)
  | swr (rt rs : RegNum) (imm : BitVec 16)
  -- 43_branch_jump.md
  | beq (rs rt : RegNum) (imm : BitVec 16)
  | bne (rs rt : RegNum) (imm : BitVec 16)
  | blez (rs : RegNum) (imm : BitVec 16)
  | bgtz (rs : RegNum) (imm : BitVec 16)
  | bltz (rs : RegNum) (imm : BitVec 16)
  | bgez (rs : RegNum) (imm : BitVec 16)
  | bltzal (rs : RegNum) (imm : BitVec 16)
  | bgezal (rs : RegNum) (imm : BitVec 16)
  | j (target : BitVec 26)
  | jal (target : BitVec 26)
  | jr (rs : RegNum)
  | jalr (rd rs : RegNum)
  -- 44_system_cop.md
  | syscall (code : BitVec 20)
  | brk (code : BitVec 20)
  | mfc0 (rt rd : RegNum)
  | mtc0 (rt rd : RegNum)
  | rfe
  | mfc2 (rt rd : RegNum)
  | cfc2 (rt rd : RegNum)
  | mtc2 (rt rd : RegNum)
  | ctc2 (rt rd : RegNum)
  | lwc2 (rt rs : RegNum) (imm : BitVec 16)
  | swc2 (rt rs : RegNum) (imm : BitVec 16)
  -- 46_gte_commands.md
  | gteRtps (a : GteArgs)
  | gteNclip (a : GteArgs)
  | gteOp (a : GteArgs)
  | gteDpcs (a : GteArgs)
  | gteIntpl (a : GteArgs)
  | gteMvmva (a : GteArgs)
  | gteNcds (a : GteArgs)
  | gteCdp (a : GteArgs)
  | gteNcdt (a : GteArgs)
  | gteNccs (a : GteArgs)
  | gteCc (a : GteArgs)
  | gteNcs (a : GteArgs)
  | gteNct (a : GteArgs)
  | gteSqr (a : GteArgs)
  | gteDcpl (a : GteArgs)
  | gteDpct (a : GteArgs)
  | gteAvsz3 (a : GteArgs)
  | gteAvsz4 (a : GteArgs)
  | gteRtpt (a : GteArgs)
  | gteGpf (a : GteArgs)
  | gteGpl (a : GteArgs)
  | gteNcct (a : GteArgs)
  -- 47_gpu_commands.md, GP0
  | gp0Nop (arg : BitVec 24)
  | gp0ClearCache (arg : BitVec 24)
  | gp0Fill (colour : BitVec 24) (pos size : Word)
  | gp0Irq (arg : BitVec 24)
  | gp0Polygon (shaded quad textured semi raw : Bool) (colour : BitVec 24) (args : List Word)
  | gp0Line (shaded ign2 semi ign0 : Bool) (colour : BitVec 24) (args : List Word)
  | gp0Rect (size : BitVec 2) (textured semi raw : Bool) (colour : BitVec 24) (args : List Word)
  | gp0CopyVram (arg : BitVec 24) (src dst size : Word)
  | gp0ToVram (arg : BitVec 24) (dst size : Word)
  | gp0FromVram (arg : BitVec 24) (src size : Word)
  | gp0DrawMode (arg : BitVec 24)
  | gp0TexWindow (arg : BitVec 24)
  | gp0AreaTl (arg : BitVec 24)
  | gp0AreaBr (arg : BitVec 24)
  | gp0Offset (arg : BitVec 24)
  | gp0MaskBits (arg : BitVec 24)
  -- 47_gpu_commands.md, GP1
  | gp1Reset (arg : BitVec 24)
  | gp1ResetBuffer (arg : BitVec 24)
  | gp1AckIrq (arg : BitVec 24)
  | gp1DisplayEnable (arg : BitVec 24)
  | gp1DmaDirection (arg : BitVec 24)
  | gp1DisplayStart (arg : BitVec 24)
  | gp1HRange (arg : BitVec 24)
  | gp1VRange (arg : BitVec 24)
  | gp1DisplayMode (arg : BitVec 24)
  | gp1GetInfo (arg : BitVec 24)
  -- 48_cdrom_commands.md
  | cdcGetstat
  | cdcSetloc
  | cdcPlay
  | cdcReadN
  | cdcMotorOn
  | cdcStop
  | cdcPause
  | cdcInit
  | cdcMute
  | cdcDemute
  | cdcSetfilter
  | cdcSetmode
  | cdcGetparam
  | cdcGetlocL
  | cdcGetlocP
  | cdcGetTN
  | cdcGetTD
  | cdcSeekL
  | cdcSeekP
  | cdcTest
  | cdcGetID
  | cdcReadS
  | cdcReadTOC
  deriving DecidableEq, Repr

end Sys2Proof
end

