-- ==== Sys2Proof/WellFormed.lean ====
section
/-!
DEFINITION. Well-formed instructions. The operand types already bound every field of a processor word, so
the checks left are the word counts of the three GP0 commands whose length depends on their command byte
(47_gpu_commands.md R436).
-/

namespace Sys2Proof

/-- Words of a polygon after the first (47_gpu_commands.md R436). -/
def polygonArgs (shaded quad textured : Bool) : Nat :=
  let nv := if quad then 4 else 3
  nv + (if textured then nv else 0) + (if shaded then nv - 1 else 0)

/-- Words of a line after the first (47_gpu_commands.md R436). -/
def lineArgs (shaded : Bool) : Nat :=
  2 + (if shaded then 1 else 0)

/-- Words of a rectangle after the first (47_gpu_commands.md R436). -/
def rectArgs (size : BitVec 2) (textured : Bool) : Nat :=
  1 + (if textured then 1 else 0) + (if size = 0#2 then 1 else 0)

/-- The instruction has exactly the words its command byte asks for. -/
def Instr.wf : Instr → Bool
  | .gp0Polygon shaded quad textured _ _ _ args => args.length == polygonArgs shaded quad textured
  | .gp0Line shaded _ _ _ _ args => args.length == lineArgs shaded
  | .gp0Rect size textured _ _ _ args => args.length == rectArgs size textured
  | _ => true

end Sys2Proof
end

