-- ==== Sys2Proof/Decode.lean ====
section
/-!
DEFINITION. Decoding and encoding (30_encoding.md, 47_gpu_commands.md R435, R436, R440, R480,
48_cdrom_commands.md R520). There are four decode spaces, told apart by where the bits arrive: a fetched
word, a word at the GP0 port, a word at the GP1 port, a byte at the disc command port. Decoding is total
and rejects by name; the encoder stands after it.
-/

namespace Sys2Proof

/-- The four decode spaces (INDEX.md: told apart by the table's `format`). -/
inductive Space where
  | cpu
  | gp0
  | gp1
  | disc
  deriving DecidableEq, Repr

/-- Why a decoder rejects. -/
inductive Reject where
  /-- fewer bytes or words than the instruction has -/
  | shortInput
  /-- a primary opcode blank in 30_encoding.md R124 -/
  | opcode
  /-- a SPECIAL function blank in R126 -/
  | funct
  /-- a REGIMM selector outside R127 -/
  | regimm
  /-- a COP0 word outside R128 -/
  | cop0
  /-- a COP2 word with bit 25 clear that is none of the four moves of R129 -/
  | cop2Move
  /-- a coprocessor-2 command number outside 46_gte_commands.md R380 -/
  | cop2Command
  /-- a field that the instruction does not use is not zero (R125) -/
  | unusedField
  /-- a command byte outside 47_gpu_commands.md R440 -/
  | gp0Command
  /-- a command byte outside 47_gpu_commands.md R480 -/
  | gp1Command
  /-- a command byte outside 48_cdrom_commands.md R520 -/
  | discCommand
  deriving DecidableEq, Repr

/-! ## Fields -/

/-- Bits 31:26 (30_encoding.md R121). -/
def fOp (w : Word) : BitVec 6 := w.extractLsb' 26 6
/-- Bits 25:21. -/
def fRs (w : Word) : BitVec 5 := w.extractLsb' 21 5
/-- Bits 20:16. -/
def fRt (w : Word) : BitVec 5 := w.extractLsb' 16 5
/-- Bits 15:11. -/
def fRd (w : Word) : BitVec 5 := w.extractLsb' 11 5
/-- Bits 10:6. -/
def fShamt (w : Word) : BitVec 5 := w.extractLsb' 6 5
/-- Bits 5:0. -/
def fFunct (w : Word) : BitVec 6 := w.extractLsb' 0 6
/-- Bits 15:0. -/
def fImm (w : Word) : BitVec 16 := w.extractLsb' 0 16
/-- Bits 25:0. -/
def fTarget (w : Word) : BitVec 26 := w.extractLsb' 0 26
/-- Bits 25:6 of SYSCALL and BREAK (R122). -/
def fCode (w : Word) : BitVec 20 := w.extractLsb' 6 20
/-- Bits 31:24, the command byte of a graphics word (R131). -/
def fCmd (w : Word) : Byte := w.extractLsb' 24 8
/-- Bits 23:0 of a graphics word. -/
def fArg (w : Word) : BitVec 24 := w.extractLsb' 0 24

/-- The fields of a coprocessor-2 command word (R130). -/
def fGte (w : Word) : GteArgs where
  ign5 := w.extractLsb' 20 5
  sf := w.getLsbD 19
  mx := w.extractLsb' 17 2
  v := w.extractLsb' 15 2
  cv := w.extractLsb' 13 2
  ign2 := w.extractLsb' 11 2
  lm := w.getLsbD 10
  ign4 := w.extractLsb' 6 4

/-! ## Processor words -/

/-- Every unused field must be zero (30_encoding.md R125). -/
def strict (ok : Bool) (i : Instr) : Except Reject Instr :=
  if ok then .ok i else .error .unusedField

/-- SPECIAL, selected by bits 5:0 (R126). -/
def decodeSpecial (w : Word) : Except Reject Instr :=
  let rs := fRs w
  let rt := fRt w
  let rd := fRd w
  let sh := fShamt w
  match (fFunct w).toNat with
  | 0x00 => strict (rs == 0) (.sll rd rt sh)
  | 0x02 => strict (rs == 0) (.srl rd rt sh)
  | 0x03 => strict (rs == 0) (.sra rd rt sh)
  | 0x04 => strict (sh == 0) (.sllv rd rt rs)
  | 0x06 => strict (sh == 0) (.srlv rd rt rs)
  | 0x07 => strict (sh == 0) (.srav rd rt rs)
  | 0x08 => strict (rt == 0 && rd == 0 && sh == 0) (.jr rs)
  | 0x09 => strict (rt == 0 && sh == 0) (.jalr rd rs)
  | 0x0C => .ok (.syscall (fCode w))
  | 0x0D => .ok (.brk (fCode w))
  | 0x10 => strict (rs == 0 && rt == 0 && sh == 0) (.mfhi rd)
  | 0x12 => strict (rs == 0 && rt == 0 && sh == 0) (.mflo rd)
  | 0x11 => strict (rt == 0 && rd == 0 && sh == 0) (.mthi rs)
  | 0x13 => strict (rt == 0 && rd == 0 && sh == 0) (.mtlo rs)
  | 0x18 => strict (rd == 0 && sh == 0) (.mult rs rt)
  | 0x19 => strict (rd == 0 && sh == 0) (.multu rs rt)
  | 0x1A => strict (rd == 0 && sh == 0) (.div rs rt)
  | 0x1B => strict (rd == 0 && sh == 0) (.divu rs rt)
  | 0x20 => strict (sh == 0) (.add rd rs rt)
  | 0x21 => strict (sh == 0) (.addu rd rs rt)
  | 0x22 => strict (sh == 0) (.sub rd rs rt)
  | 0x23 => strict (sh == 0) (.subu rd rs rt)
  | 0x24 => strict (sh == 0) (.and rd rs rt)
  | 0x25 => strict (sh == 0) (.or rd rs rt)
  | 0x26 => strict (sh == 0) (.xor rd rs rt)
  | 0x27 => strict (sh == 0) (.nor rd rs rt)
  | 0x2A => strict (sh == 0) (.slt rd rs rt)
  | 0x2B => strict (sh == 0) (.sltu rd rs rt)
  | _ => .error .funct

/-- REGIMM, selected by bits 20:16 (R127). -/
def decodeRegimm (w : Word) : Except Reject Instr :=
  let rs := fRs w
  let imm := fImm w
  match (fRt w).toNat with
  | 0x00 => .ok (.bltz rs imm)
  | 0x01 => .ok (.bgez rs imm)
  | 0x10 => .ok (.bltzal rs imm)
  | 0x11 => .ok (.bgezal rs imm)
  | _ => .error .regimm

/-- COP0 (R128): two moves and the single word RFE. -/
def decodeCop0 (w : Word) : Except Reject Instr :=
  let low := w.extractLsb' 0 11
  match (fRs w).toNat with
  | 0x00 => strict (low == 0) (.mfc0 (fRt w) (fRd w))
  | 0x04 => strict (low == 0) (.mtc0 (fRt w) (fRd w))
  | _ => if w = 0x42000010#32 then .ok .rfe else .error .cop0

/-- A coprocessor-2 command, selected by bits 5:0 (R130, 46_gte_commands.md R380). -/
def decodeGte (w : Word) : Except Reject Instr :=
  let a := fGte w
  match (fFunct w).toNat with
  | 0x01 => .ok (.gteRtps a)
  | 0x06 => .ok (.gteNclip a)
  | 0x0C => .ok (.gteOp a)
  | 0x10 => .ok (.gteDpcs a)
  | 0x11 => .ok (.gteIntpl a)
  | 0x12 => .ok (.gteMvmva a)
  | 0x13 => .ok (.gteNcds a)
  | 0x14 => .ok (.gteCdp a)
  | 0x16 => .ok (.gteNcdt a)
  | 0x1B => .ok (.gteNccs a)
  | 0x1C => .ok (.gteCc a)
  | 0x1E => .ok (.gteNcs a)
  | 0x20 => .ok (.gteNct a)
  | 0x28 => .ok (.gteSqr a)
  | 0x29 => .ok (.gteDcpl a)
  | 0x2A => .ok (.gteDpct a)
  | 0x2D => .ok (.gteAvsz3 a)
  | 0x2E => .ok (.gteAvsz4 a)
  | 0x30 => .ok (.gteRtpt a)
  | 0x3D => .ok (.gteGpf a)
  | 0x3E => .ok (.gteGpl a)
  | 0x3F => .ok (.gteNcct a)
  | _ => .error .cop2Command

/-- COP2 (R129): a command when bit 25 is 1, else one of four moves. -/
def decodeCop2 (w : Word) : Except Reject Instr :=
  let low := w.extractLsb' 0 11
  if w.getLsbD 25 then decodeGte w
  else
    match (fRs w).toNat with
    | 0x00 => strict (low == 0) (.mfc2 (fRt w) (fRd w))
    | 0x02 => strict (low == 0) (.cfc2 (fRt w) (fRd w))
    | 0x04 => strict (low == 0) (.mtc2 (fRt w) (fRd w))
    | 0x06 => strict (low == 0) (.ctc2 (fRt w) (fRd w))
    | _ => .error .cop2Move

/-- `decode` of 30_encoding.md R125: the processor's decoder, by primary opcode (R124). -/
def decodeCpu (w : Word) : Except Reject Instr :=
  let rs := fRs w
  let rt := fRt w
  let imm := fImm w
  match (fOp w).toNat with
  | 0x00 => decodeSpecial w
  | 0x01 => decodeRegimm w
  | 0x02 => .ok (.j (fTarget w))
  | 0x03 => .ok (.jal (fTarget w))
  | 0x04 => .ok (.beq rs rt imm)
  | 0x05 => .ok (.bne rs rt imm)
  | 0x06 => strict (rt == 0) (.blez rs imm)
  | 0x07 => strict (rt == 0) (.bgtz rs imm)
  | 0x08 => .ok (.addi rt rs imm)
  | 0x09 => .ok (.addiu rt rs imm)
  | 0x0A => .ok (.slti rt rs imm)
  | 0x0B => .ok (.sltiu rt rs imm)
  | 0x0C => .ok (.andi rt rs imm)
  | 0x0D => .ok (.ori rt rs imm)
  | 0x0E => .ok (.xori rt rs imm)
  | 0x0F => strict (rs == 0) (.lui rt imm)
  | 0x10 => decodeCop0 w
  | 0x12 => decodeCop2 w
  | 0x20 => .ok (.lb rt rs imm)
  | 0x21 => .ok (.lh rt rs imm)
  | 0x22 => .ok (.lwl rt rs imm)
  | 0x23 => .ok (.lw rt rs imm)
  | 0x24 => .ok (.lbu rt rs imm)
  | 0x25 => .ok (.lhu rt rs imm)
  | 0x26 => .ok (.lwr rt rs imm)
  | 0x28 => .ok (.sb rt rs imm)
  | 0x29 => .ok (.sh rt rs imm)
  | 0x2A => .ok (.swl rt rs imm)
  | 0x2B => .ok (.sw rt rs imm)
  | 0x2E => .ok (.swr rt rs imm)
  | 0x32 => .ok (.lwc2 rt rs imm)
  | 0x3A => .ok (.swc2 rt rs imm)
  | _ => .error .opcode

/-! ## Graphics words -/

/-- `words(c)` of 47_gpu_commands.md R436; `none` for a byte outside R440. -/
def gp0Words (c : Byte) : Option Nat :=
  let n := c.toNat
  if n = 0x00 ∨ n = 0x01 ∨ n = 0x1F ∨ (0xE1 ≤ n ∧ n ≤ 0xE6) then some 1
  else if n = 0x02 then some 3
  else if c.extractLsb' 5 3 = 1#3 then
    some (1 + polygonArgs (c.getLsbD 4) (c.getLsbD 3) (c.getLsbD 2))
  else if c.extractLsb' 5 3 = 2#3 ∧ c.getLsbD 3 = false then some (1 + lineArgs (c.getLsbD 4))
  else if c.extractLsb' 5 3 = 3#3 then some (1 + rectArgs (c.extractLsb' 3 2) (c.getLsbD 2))
  else if n = 0x80 then some 4
  else if n = 0xA0 ∨ n = 0xC0 then some 3
  else none

/-- The command whose first word is `w` and whose further words are `args` (47_gpu_commands.md R440), for
as many of them as `gp0Words` says. -/
def gp0OfWords (w : Word) (args : List Word) : Except Reject Instr :=
  let c := fCmd w
  let a := fArg w
  match c.extractLsb' 5 3 with
  | 1#3 =>
    .ok (.gp0Polygon (c.getLsbD 4) (c.getLsbD 3) (c.getLsbD 2) (c.getLsbD 1) (c.getLsbD 0) a args)
  | 2#3 =>
    if c.getLsbD 3 then .error .gp0Command
    else .ok (.gp0Line (c.getLsbD 4) (c.getLsbD 2) (c.getLsbD 1) (c.getLsbD 0) a args)
  | 3#3 =>
    .ok (.gp0Rect (c.extractLsb' 3 2) (c.getLsbD 2) (c.getLsbD 1) (c.getLsbD 0) a args)
  | _ =>
    match c.toNat with
    | 0x00 => .ok (.gp0Nop a)
    | 0x01 => .ok (.gp0ClearCache a)
    | 0x02 => .ok (.gp0Fill a (args.getD 0 0) (args.getD 1 0))
    | 0x1F => .ok (.gp0Irq a)
    | 0x80 => .ok (.gp0CopyVram a (args.getD 0 0) (args.getD 1 0) (args.getD 2 0))
    | 0xA0 => .ok (.gp0ToVram a (args.getD 0 0) (args.getD 1 0))
    | 0xC0 => .ok (.gp0FromVram a (args.getD 0 0) (args.getD 1 0))
    | 0xE1 => .ok (.gp0DrawMode a)
    | 0xE2 => .ok (.gp0TexWindow a)
    | 0xE3 => .ok (.gp0AreaTl a)
    | 0xE4 => .ok (.gp0AreaBr a)
    | 0xE5 => .ok (.gp0Offset a)
    | 0xE6 => .ok (.gp0MaskBits a)
    | _ => .error .gp0Command

/-- One command from a stream of GP0 words, with the rest of the stream. -/
def decodeGp0 : List Word → Except Reject (Instr × List Word)
  | [] => .error .shortInput
  | w :: rest =>
    match gp0Words (fCmd w) with
    | none => .error .gp0Command
    | some n =>
      if rest.length < n - 1 then .error .shortInput
      else
        match gp0OfWords w (rest.take (n - 1)) with
        | .ok i => .ok (i, rest.drop (n - 1))
        | .error e => .error e

/-- The GP1 command of a word (47_gpu_commands.md R480). -/
def decodeGp1 (w : Word) : Except Reject Instr :=
  let a := fArg w
  match (fCmd w).toNat with
  | 0x00 => .ok (.gp1Reset a)
  | 0x01 => .ok (.gp1ResetBuffer a)
  | 0x02 => .ok (.gp1AckIrq a)
  | 0x03 => .ok (.gp1DisplayEnable a)
  | 0x04 => .ok (.gp1DmaDirection a)
  | 0x05 => .ok (.gp1DisplayStart a)
  | 0x06 => .ok (.gp1HRange a)
  | 0x07 => .ok (.gp1VRange a)
  | 0x08 => .ok (.gp1DisplayMode a)
  | 0x10 => .ok (.gp1GetInfo a)
  | _ => .error .gp1Command

/-! ## Disc command bytes -/

/-- The disc command of a byte (48_cdrom_commands.md R520). -/
def decodeDisc (b : Byte) : Except Reject Instr :=
  match b.toNat with
  | 0x01 => .ok .cdcGetstat
  | 0x02 => .ok .cdcSetloc
  | 0x03 => .ok .cdcPlay
  | 0x06 => .ok .cdcReadN
  | 0x07 => .ok .cdcMotorOn
  | 0x08 => .ok .cdcStop
  | 0x09 => .ok .cdcPause
  | 0x0A => .ok .cdcInit
  | 0x0B => .ok .cdcMute
  | 0x0C => .ok .cdcDemute
  | 0x0D => .ok .cdcSetfilter
  | 0x0E => .ok .cdcSetmode
  | 0x0F => .ok .cdcGetparam
  | 0x10 => .ok .cdcGetlocL
  | 0x11 => .ok .cdcGetlocP
  | 0x13 => .ok .cdcGetTN
  | 0x14 => .ok .cdcGetTD
  | 0x15 => .ok .cdcSeekL
  | 0x16 => .ok .cdcSeekP
  | 0x19 => .ok .cdcTest
  | 0x1A => .ok .cdcGetID
  | 0x1B => .ok .cdcReadS
  | 0x1E => .ok .cdcReadTOC
  | _ => .error .discCommand

/-! ## Any bytes -/

/-- The little-endian word of four bytes (20_memory.md R70). -/
def wordOfBytes (b0 b1 b2 b3 : Byte) : Word := b3 ++ b2 ++ b1 ++ b0

/-- As many whole words as the bytes hold; what is left over is dropped. -/
def wordsOfBytes : List Byte → List Word
  | b0 :: b1 :: b2 :: b3 :: rest => wordOfBytes b0 b1 b2 b3 :: wordsOfBytes rest
  | _ => []

/-- The first instruction of a byte sequence in a decode space, total on any bytes. The bytes after the
instruction play no part. -/
def decode (sp : Space) (bytes : List Byte) : Except Reject Instr :=
  match sp with
  | .cpu =>
    match wordsOfBytes bytes with
    | w :: _ => decodeCpu w
    | [] => .error .shortInput
  | .gp0 =>
    match decodeGp0 (wordsOfBytes bytes) with
    | .ok (i, _) => .ok i
    | .error e => .error e
  | .gp1 =>
    match wordsOfBytes bytes with
    | w :: _ => decodeGp1 w
    | [] => .error .shortInput
  | .disc =>
    match bytes with
    | b :: _ => decodeDisc b
    | [] => .error .shortInput

/-! ## The encoder -/

/-- Format R (30_encoding.md R121). -/
def wordR (rs rt rd shamt : BitVec 5) (funct : BitVec 6) : Word :=
  0#6 ++ rs ++ rt ++ rd ++ shamt ++ funct

/-- Format I. -/
def wordI (op : BitVec 6) (rs rt : BitVec 5) (imm : BitVec 16) : Word :=
  op ++ rs ++ rt ++ imm

/-- Format J. -/
def wordJ (op : BitVec 6) (target : BitVec 26) : Word :=
  op ++ target

/-- SYSCALL and BREAK: SPECIAL with a 20-bit code in bits 25:6 (R122). -/
def wordTrap (code : BitVec 20) (funct : BitVec 6) : Word :=
  0#6 ++ code ++ funct

/-- Format COP, the moves: bits 10:0 are zero. -/
def wordCop (op : BitVec 6) (sub rt rd : BitVec 5) : Word :=
  op ++ sub ++ rt ++ rd ++ 0#11

/-- A coprocessor-2 command word (R130). -/
def wordGte (a : GteArgs) (cmd : BitVec 6) : Word :=
  0b0100101#7 ++ a.ign5 ++ BitVec.ofBool a.sf ++ a.mx ++ a.v ++ a.cv ++ a.ign2 ++ BitVec.ofBool a.lm ++
    a.ign4 ++ cmd

/-- A graphics word: command byte and bits 23:0 (R131). -/
def wordGpu (c : BitVec 8) (arg : BitVec 24) : Word :=
  c ++ arg

/-- A command byte from its eight bits, bit 7 first. -/
def byteOfBits (top : BitVec 3) (b4 b3 b2 b1 b0 : Bool) : Byte :=
  top ++ BitVec.ofBool b4 ++ BitVec.ofBool b3 ++ BitVec.ofBool b2 ++ BitVec.ofBool b1 ++
    BitVec.ofBool b0

/-- The decode space an instruction belongs to. -/
def Instr.space : Instr → Space
  | .gp0Nop .. | .gp0ClearCache .. | .gp0Fill .. | .gp0Irq .. | .gp0Polygon .. | .gp0Line ..
  | .gp0Rect .. | .gp0CopyVram .. | .gp0ToVram .. | .gp0FromVram .. | .gp0DrawMode ..
  | .gp0TexWindow .. | .gp0AreaTl .. | .gp0AreaBr .. | .gp0Offset .. | .gp0MaskBits .. => .gp0
  | .gp1Reset .. | .gp1ResetBuffer .. | .gp1AckIrq .. | .gp1DisplayEnable .. | .gp1DmaDirection ..
  | .gp1DisplayStart .. | .gp1HRange .. | .gp1VRange .. | .gp1DisplayMode .. | .gp1GetInfo .. => .gp1
  | .cdcGetstat | .cdcSetloc | .cdcPlay | .cdcReadN | .cdcMotorOn | .cdcStop | .cdcPause | .cdcInit
  | .cdcMute | .cdcDemute | .cdcSetfilter | .cdcSetmode | .cdcGetparam | .cdcGetlocL | .cdcGetlocP
  | .cdcGetTN | .cdcGetTD | .cdcSeekL | .cdcSeekP | .cdcTest | .cdcGetID | .cdcReadS
  | .cdcReadTOC => .disc
  | _ => .cpu

/-- The words of an instruction, first word first. A disc command's byte stands in bits 7:0. -/
def encodeWords : Instr → List Word
  | .add rd rs rt => [wordR rs rt rd 0 0x20#6]
  | .addu rd rs rt => [wordR rs rt rd 0 0x21#6]
  | .sub rd rs rt => [wordR rs rt rd 0 0x22#6]
  | .subu rd rs rt => [wordR rs rt rd 0 0x23#6]
  | .and rd rs rt => [wordR rs rt rd 0 0x24#6]
  | .or rd rs rt => [wordR rs rt rd 0 0x25#6]
  | .xor rd rs rt => [wordR rs rt rd 0 0x26#6]
  | .nor rd rs rt => [wordR rs rt rd 0 0x27#6]
  | .slt rd rs rt => [wordR rs rt rd 0 0x2A#6]
  | .sltu rd rs rt => [wordR rs rt rd 0 0x2B#6]
  | .addi rt rs imm => [wordI 0x08#6 rs rt imm]
  | .addiu rt rs imm => [wordI 0x09#6 rs rt imm]
  | .slti rt rs imm => [wordI 0x0A#6 rs rt imm]
  | .sltiu rt rs imm => [wordI 0x0B#6 rs rt imm]
  | .andi rt rs imm => [wordI 0x0C#6 rs rt imm]
  | .ori rt rs imm => [wordI 0x0D#6 rs rt imm]
  | .xori rt rs imm => [wordI 0x0E#6 rs rt imm]
  | .lui rt imm => [wordI 0x0F#6 0 rt imm]
  | .sll rd rt shamt => [wordR 0 rt rd shamt 0x00#6]
  | .srl rd rt shamt => [wordR 0 rt rd shamt 0x02#6]
  | .sra rd rt shamt => [wordR 0 rt rd shamt 0x03#6]
  | .sllv rd rt rs => [wordR rs rt rd 0 0x04#6]
  | .srlv rd rt rs => [wordR rs rt rd 0 0x06#6]
  | .srav rd rt rs => [wordR rs rt rd 0 0x07#6]
  | .mult rs rt => [wordR rs rt 0 0 0x18#6]
  | .multu rs rt => [wordR rs rt 0 0 0x19#6]
  | .div rs rt => [wordR rs rt 0 0 0x1A#6]
  | .divu rs rt => [wordR rs rt 0 0 0x1B#6]
  | .mfhi rd => [wordR 0 0 rd 0 0x10#6]
  | .mflo rd => [wordR 0 0 rd 0 0x12#6]
  | .mthi rs => [wordR rs 0 0 0 0x11#6]
  | .mtlo rs => [wordR rs 0 0 0 0x13#6]
  | .lb rt rs imm => [wordI 0x20#6 rs rt imm]
  | .lbu rt rs imm => [wordI 0x24#6 rs rt imm]
  | .lh rt rs imm => [wordI 0x21#6 rs rt imm]
  | .lhu rt rs imm => [wordI 0x25#6 rs rt imm]
  | .lw rt rs imm => [wordI 0x23#6 rs rt imm]
  | .lwl rt rs imm => [wordI 0x22#6 rs rt imm]
  | .lwr rt rs imm => [wordI 0x26#6 rs rt imm]
  | .sb rt rs imm => [wordI 0x28#6 rs rt imm]
  | .sh rt rs imm => [wordI 0x29#6 rs rt imm]
  | .sw rt rs imm => [wordI 0x2B#6 rs rt imm]
  | .swl rt rs imm => [wordI 0x2A#6 rs rt imm]
  | .swr rt rs imm => [wordI 0x2E#6 rs rt imm]
  | .beq rs rt imm => [wordI 0x04#6 rs rt imm]
  | .bne rs rt imm => [wordI 0x05#6 rs rt imm]
  | .blez rs imm => [wordI 0x06#6 rs 0 imm]
  | .bgtz rs imm => [wordI 0x07#6 rs 0 imm]
  | .bltz rs imm => [wordI 0x01#6 rs 0x00#5 imm]
  | .bgez rs imm => [wordI 0x01#6 rs 0x01#5 imm]
  | .bltzal rs imm => [wordI 0x01#6 rs 0x10#5 imm]
  | .bgezal rs imm => [wordI 0x01#6 rs 0x11#5 imm]
  | .j target => [wordJ 0x02#6 target]
  | .jal target => [wordJ 0x03#6 target]
  | .jr rs => [wordR rs 0 0 0 0x08#6]
  | .jalr rd rs => [wordR rs 0 rd 0 0x09#6]
  | .syscall code => [wordTrap code 0x0C#6]
  | .brk code => [wordTrap code 0x0D#6]
  | .mfc0 rt rd => [wordCop 0x10#6 0x00#5 rt rd]
  | .mtc0 rt rd => [wordCop 0x10#6 0x04#5 rt rd]
  | .rfe => [0x42000010#32]
  | .mfc2 rt rd => [wordCop 0x12#6 0x00#5 rt rd]
  | .cfc2 rt rd => [wordCop 0x12#6 0x02#5 rt rd]
  | .mtc2 rt rd => [wordCop 0x12#6 0x04#5 rt rd]
  | .ctc2 rt rd => [wordCop 0x12#6 0x06#5 rt rd]
  | .lwc2 rt rs imm => [wordI 0x32#6 rs rt imm]
  | .swc2 rt rs imm => [wordI 0x3A#6 rs rt imm]
  | .gteRtps a => [wordGte a 0x01#6]
  | .gteNclip a => [wordGte a 0x06#6]
  | .gteOp a => [wordGte a 0x0C#6]
  | .gteDpcs a => [wordGte a 0x10#6]
  | .gteIntpl a => [wordGte a 0x11#6]
  | .gteMvmva a => [wordGte a 0x12#6]
  | .gteNcds a => [wordGte a 0x13#6]
  | .gteCdp a => [wordGte a 0x14#6]
  | .gteNcdt a => [wordGte a 0x16#6]
  | .gteNccs a => [wordGte a 0x1B#6]
  | .gteCc a => [wordGte a 0x1C#6]
  | .gteNcs a => [wordGte a 0x1E#6]
  | .gteNct a => [wordGte a 0x20#6]
  | .gteSqr a => [wordGte a 0x28#6]
  | .gteDcpl a => [wordGte a 0x29#6]
  | .gteDpct a => [wordGte a 0x2A#6]
  | .gteAvsz3 a => [wordGte a 0x2D#6]
  | .gteAvsz4 a => [wordGte a 0x2E#6]
  | .gteRtpt a => [wordGte a 0x30#6]
  | .gteGpf a => [wordGte a 0x3D#6]
  | .gteGpl a => [wordGte a 0x3E#6]
  | .gteNcct a => [wordGte a 0x3F#6]
  | .gp0Nop arg => [wordGpu 0x00#8 arg]
  | .gp0ClearCache arg => [wordGpu 0x01#8 arg]
  | .gp0Fill colour pos size => [wordGpu 0x02#8 colour, pos, size]
  | .gp0Irq arg => [wordGpu 0x1F#8 arg]
  | .gp0Polygon shaded quad textured semi raw colour args =>
    wordGpu (byteOfBits 1#3 shaded quad textured semi raw) colour :: args
  | .gp0Line shaded ign2 semi ign0 colour args =>
    wordGpu (byteOfBits 2#3 shaded false ign2 semi ign0) colour :: args
  | .gp0Rect size textured semi raw colour args =>
    wordGpu (byteOfBits 3#3 (size.getLsbD 1) (size.getLsbD 0) textured semi raw) colour :: args
  | .gp0CopyVram arg src dst size => [wordGpu 0x80#8 arg, src, dst, size]
  | .gp0ToVram arg dst size => [wordGpu 0xA0#8 arg, dst, size]
  | .gp0FromVram arg src size => [wordGpu 0xC0#8 arg, src, size]
  | .gp0DrawMode arg => [wordGpu 0xE1#8 arg]
  | .gp0TexWindow arg => [wordGpu 0xE2#8 arg]
  | .gp0AreaTl arg => [wordGpu 0xE3#8 arg]
  | .gp0AreaBr arg => [wordGpu 0xE4#8 arg]
  | .gp0Offset arg => [wordGpu 0xE5#8 arg]
  | .gp0MaskBits arg => [wordGpu 0xE6#8 arg]
  | .gp1Reset arg => [wordGpu 0x00#8 arg]
  | .gp1ResetBuffer arg => [wordGpu 0x01#8 arg]
  | .gp1AckIrq arg => [wordGpu 0x02#8 arg]
  | .gp1DisplayEnable arg => [wordGpu 0x03#8 arg]
  | .gp1DmaDirection arg => [wordGpu 0x04#8 arg]
  | .gp1DisplayStart arg => [wordGpu 0x05#8 arg]
  | .gp1HRange arg => [wordGpu 0x06#8 arg]
  | .gp1VRange arg => [wordGpu 0x07#8 arg]
  | .gp1DisplayMode arg => [wordGpu 0x08#8 arg]
  | .gp1GetInfo arg => [wordGpu 0x10#8 arg]
  | .cdcGetstat => [0x01#32]
  | .cdcSetloc => [0x02#32]
  | .cdcPlay => [0x03#32]
  | .cdcReadN => [0x06#32]
  | .cdcMotorOn => [0x07#32]
  | .cdcStop => [0x08#32]
  | .cdcPause => [0x09#32]
  | .cdcInit => [0x0A#32]
  | .cdcMute => [0x0B#32]
  | .cdcDemute => [0x0C#32]
  | .cdcSetfilter => [0x0D#32]
  | .cdcSetmode => [0x0E#32]
  | .cdcGetparam => [0x0F#32]
  | .cdcGetlocL => [0x10#32]
  | .cdcGetlocP => [0x11#32]
  | .cdcGetTN => [0x13#32]
  | .cdcGetTD => [0x14#32]
  | .cdcSeekL => [0x15#32]
  | .cdcSeekP => [0x16#32]
  | .cdcTest => [0x19#32]
  | .cdcGetID => [0x1A#32]
  | .cdcReadS => [0x1B#32]
  | .cdcReadTOC => [0x1E#32]

/-- The first encoded word; every instruction has one. -/
def encodeWord (i : Instr) : Word := (encodeWords i).headD 0

/-- The bytes of a word, lowest address first (20_memory.md R70). -/
def bytesOfWord (w : Word) : List Byte :=
  [w.extractLsb' 0 8, w.extractLsb' 8 8, w.extractLsb' 16 8, w.extractLsb' 24 8]

/-- The bytes of an instruction as its decode space receives them. -/
def encode (i : Instr) : List Byte :=
  match i.space with
  | .disc => [(encodeWord i).extractLsb' 0 8]
  | _ => (encodeWords i).flatMap bytesOfWord

/-! ## The table's words -/

/-- The instruction read from a row's bits. A disc row has one byte. A 32-bit row does not say its decode
space, and the spaces overlap (0x00000000 is SLL at the fetch, NOP at GP0, RESET at GP1): the processor's
decoder is asked first, then GP0 with further words of zeros, then GP1 (log 15). -/
def decodeTableWord (nbits w : Nat) : Option Instr :=
  if nbits ≤ 8 then (decodeDisc (BitVec.ofNat 8 w)).toOption
  else
    let word := BitVec.ofNat 32 w
    match decodeCpu word with
    | .ok i => some i
    | .error _ =>
      match decodeGp0 (word :: List.replicate 11 0) with
      | .ok (i, _) => some i
      | .error _ => (decodeGp1 word).toOption

end Sys2Proof
end

