-- ==== Sys2Proof/Machine/State.lean ====
section
/-!
DEFINITION. The state of the machine as plain data, every piece the spec names (10_state.md; the device
files), the reasons a step can stop, and the state after reset. Records follow the owners of 10_state.md
R38 and R39. Reset values the spec does not give are marked with their log entry.
-/

namespace Sys2Proof.Machine

/-! ## Halts, faults, refusals -/

/-- The agent named in a halt record (10_state.md R60). -/
inductive Component where
  | processor
  | coprocessor
  | bus
  | dma
  | graphics
  deriving DecidableEq, Repr

/-- The three engineering errors of 10_state.md R60. -/
inductive HaltReason where
  | busError
  | unknownOpcode
  | dmaDesyncError
  deriving DecidableEq, Repr

/-- The record of HALT (10_state.md R60). -/
structure HaltRecord where
  reason : HaltReason
  component : Component
  address : Word
  word : Word
  deriving DecidableEq, Repr

/-- Why a step stops with a fault. The spec's halts are faults (00_scope.md R10). -/
inductive Fault where
  /-- The bus: an unmapped address, a width a region does not take, a write to ROM (20_memory.md R82, R86).
  Safe: the hardware halts for good. -/
  | busError (component : Component) (address word : Word)
  /-- The processor's or coprocessor's decoder, MFC0 and MTC0 of a register that does not exist, MVMVA with
  the reserved matrix, the graphics ports (10_state.md R44, R28; 46_gte_commands.md R387;
  47_gpu_commands.md R441). Safe: the hardware halts for good. -/
  | unknownOpcode (component : Component) (address word : Word)
  /-- The DMA engine and the GP0 port (49_dma.md R571 to R578; 47_gpu_commands.md R437). Safe: the hardware
  halts for good. -/
  | dmaDesyncError (component : Component) (address word : Word)
  /-- A step of a machine whose HALT is set: there is none (10_state.md R60). Safe. -/
  | halted
  deriving DecidableEq, Repr

/-- The record a halt leaves in HALT. -/
def Fault.record : Fault → Option HaltRecord
  | .busError c a w => some ⟨.busError, c, a, w⟩
  | .unknownOpcode c a w => some ⟨.unknownOpcode, c, a, w⟩
  | .dmaDesyncError c a w => some ⟨.dmaDesyncError, c, a, w⟩
  | .halted => none

/-- Why a step is refused. -/
inductive Refusal where
  /-- exec: an instruction that has no meaning yet. Safe. -/
  | notModelled (mnemonic : String)
  /-- step: the host holds the machine, so no agent has a step (60_exceptions.md R650). Safe. -/
  | heldByHost
  deriving DecidableEq, Repr

/-- The seven exceptions (60_exceptions.md R600), with the failing address of an address error. -/
inductive Exc where
  | int
  | adEL (badvaddr : Word)
  | adES (badvaddr : Word)
  | sys
  | bp
  | ri
  | ov
  deriving DecidableEq, Repr

/-! ## Processor -/

/-- What one processor step carries between its eight stages (10_state.md R40): the latches taken at step
1, whether execute entered an exception, the register written at once (for R42 (d)), and in `young` the
I_STAT bits that were 0 when the step began (for 60_exceptions.md R624; log 14). -/
structure Stage where
  dpl : Option (RegNum × Word)
  dpb : Option Word
  excepted : Bool
  wrote : Option RegNum
  young : BitVec 11
  deriving DecidableEq, Repr

/-- Between steps nothing is carried. -/
def Stage.idle : Stage := ⟨none, none, false, none, 0⟩

/-- Coprocessor 0 (10_state.md R28 to R30, R34); register 15, PRID, is a parameter. -/
structure Cop0 where
  bpc : Word
  bda : Word
  jumpdest : Word
  dcic : Word
  badVaddr : Word
  bdam : Word
  bpcm : Word
  sr : Word
  cause : Word
  epc : Word
  deriving DecidableEq, Repr

/-! ## Coprocessor 2 -/

/-- A vector of three signed 16-bit components (45_gte_state_arith.md R328). -/
structure Vec16 where
  x : BitVec 16
  y : BitVec 16
  z : BitVec 16
  deriving DecidableEq, Repr

/-- A vector of three signed 32-bit components. -/
structure Vec32 where
  x : BitVec 32
  y : BitVec 32
  z : BitVec 32
  deriving DecidableEq, Repr

/-- A matrix of nine signed 16-bit elements, by rows. -/
structure Mat where
  r1 : Vec16
  r2 : Vec16
  r3 : Vec16
  deriving DecidableEq, Repr

/-- A screen point: two signed 16-bit coordinates. -/
structure Point where
  sx : BitVec 16
  sy : BitVec 16
  deriving DecidableEq, Repr

/-- The stored registers of coprocessor 2 (45_gte_state_arith.md R321, R325). `flag` holds bits 30:12 of
FLAG (R330). -/
structure Gte where
  v0 : Vec16
  v1 : Vec16
  v2 : Vec16
  rgbc : BitVec 32
  otz : BitVec 16
  ir0 : BitVec 16
  ir1 : BitVec 16
  ir2 : BitVec 16
  ir3 : BitVec 16
  sxy0 : Point
  sxy1 : Point
  sxy2 : Point
  sz0 : BitVec 16
  sz1 : BitVec 16
  sz2 : BitVec 16
  sz3 : BitVec 16
  rgb0 : BitVec 32
  rgb1 : BitVec 32
  rgb2 : BitVec 32
  res1 : BitVec 32
  mac0 : BitVec 32
  mac1 : BitVec 32
  mac2 : BitVec 32
  mac3 : BitVec 32
  lzcs : BitVec 32
  rt : Mat
  tr : Vec32
  llm : Mat
  bk : Vec32
  lcm : Mat
  fc : Vec32
  ofx : BitVec 32
  ofy : BitVec 32
  h : BitVec 16
  dqa : BitVec 16
  dqb : BitVec 32
  zsf3 : BitVec 16
  zsf4 : BitVec 16
  flag : BitVec 19
  deriving DecidableEq, Repr

/-! ## Interrupt controller and timers -/

/-- I_STAT and I_MASK (60_exceptions.md R622). -/
structure Intc where
  istat : BitVec 11
  imask : BitVec 11
  deriving DecidableEq, Repr

/-- One timer (60_exceptions.md R660). -/
structure Timer where
  count : BitVec 16
  target : BitVec 16
  mode : BitVec 13
  fired : Bool
  gate : Bool
  deriving DecidableEq, Repr

/-- The three timers and timer 2's prescaler (60_exceptions.md R660). -/
structure Timers where
  t0 : Timer
  t1 : Timer
  t2 : Timer
  pre : BitVec 3
  deriving DecidableEq, Repr

/-! ## DMA -/

/-- One channel's registers (49_dma.md R562); `chcr` holds the stored bits. -/
structure Channel where
  madr : BitVec 24
  bcr : Word
  chcr : Word
  deriving DecidableEq, Repr, Inhabited

/-- The DMA engine (49_dma.md R561); `dicr` holds the stored bits, bit 31 is computed (R568). -/
structure Dma where
  ch : Vector Channel 7
  dpcr : Word
  dicr : Word
  deriving DecidableEq, Repr, Inhabited

/-! ## Graphics -/

/-- The four states of the command machine (47_gpu_commands.md R432). The rectangle, cursor and remaining
count of a transfer stand beside it. -/
inductive GpuMode where
  | idle
  | awaiting (n : Nat)
  | toVram
  | fromVram
  deriving DecidableEq, Repr, Inhabited

/-- A rectangle of VRAM; also a region of the draw log (47_gpu_commands.md R432, R494). -/
structure Rect where
  x : Nat
  y : Nat
  w : Nat
  h : Nat
  deriving DecidableEq, Repr, Inhabited

/-- An entry of the draw log (47_gpu_commands.md R494). -/
structure LogEntry where
  words : List Word
  region : Rect
  deriving DecidableEq, Repr, Inhabited

/-- The graphics processor with its VRAM (47_gpu_commands.md R430, R432). `vram` lists (index, pixel) with
index = 1024 y + x, indexes rising. -/
structure Gpu where
  mode : GpuMode
  buf : List Word
  rect : Rect
  cx : Nat
  cy : Nat
  rem : Nat
  stat : Word
  texwin : BitVec 20
  areaTl : BitVec 19
  areaBr : BitVec 19
  offset : BitVec 22
  rectFlip : BitVec 2
  dispStart : BitVec 19
  hRange : BitVec 24
  vRange : BitVec 20
  readlatch : Word
  field : Bool
  log : List LogEntry
  frame : List LogEntry
  vram : List (Nat × BitVec 16)
  deriving DecidableEq, Repr, Inhabited

/-! ## Disc -/

/-- The modes of the disc controller (48_cdrom_commands.md R502). -/
inductive DiscMode where
  | idle
  | seeking
  | reading
  | playing
  deriving DecidableEq, Repr

/-- The disc commands, as an event of the queue names them (48_cdrom_commands.md R512, R520). -/
inductive DiscCmd where
  | getstat | setloc | play | readN | motorOn | stop | pause | init | mute | demute | setfilter
  | setmode | getparam | getlocL | getlocP | getTN | getTD | seekL | seekP | test | getID | readS
  | readTOC
  deriving DecidableEq, Repr

/-- The kinds of queued events (48_cdrom_commands.md R512). An error event keeps its second byte; the first
is computed at delivery (R511). -/
inductive EventKind where
  | ack (cmd : DiscCmd) (params : List Byte)
  | err (code : Byte)
  | done (cmd : DiscCmd)
  | sector
  | playTick
  deriving DecidableEq, Repr

/-- A queued event (48_cdrom_commands.md R512). -/
structure Event where
  delay : Nat
  kind : EventKind
  deriving DecidableEq, Repr

/-- The seven write-only stub latches of the disc ports (48_cdrom_commands.md R501, R510), named by port
and index. -/
structure DiscLatches where
  p1i1 : Byte
  p1i2 : Byte
  p1i3 : Byte
  p2i2 : Byte
  p2i3 : Byte
  p3i2 : Byte
  p3i3 : Byte
  deriving DecidableEq, Repr

/-- The disc controller (48_cdrom_commands.md R502) and the disc in it (R519): a list of raw sectors. -/
structure Cdc where
  ix : BitVec 2
  dmode : DiscMode
  motor : Bool
  pos : Int
  target : Option Int
  cmode : Byte
  file : Byte
  chan : Byte
  param : List Byte
  resp : List Byte
  data : List Byte
  sector : Option (List Byte)
  hdr : Option (List Byte)
  iflag : BitVec 3
  ien : BitVec 5
  queue : List Event
  latches : DiscLatches
  disc : Option (List (List Byte))
  deriving DecidableEq, Repr

/-! ## The host -/

/-- The host's inputs to one invocation (70_reset_and_hazards.md R682): dot-clock ticks, horizontal-blank
ticks, vertical-blank tick. -/
structure TickInput where
  d : Nat
  h : Nat
  b : Bool
  deriving DecidableEq, Repr

/-- Host-side state (10_state.md R68, 60_exceptions.md R650 to R653), the inputs supplied for the coming
invocations, and the model's own counter of invocations (log 6) and mark of a frame boundary (log 18). -/
structure HostSide where
  held : Bool
  attached : Bool
  brk : List Word
  tty : List Byte
  ticks : List TickInput
  inv : Nat
  boundary : Bool
  deriving DecidableEq, Repr

/-! ## The machine -/

/-- The whole state. Between steps `stage` is idle. `mem` lists (physical address, byte) of RAM,
scratchpad, ROM and the stub latches, addresses rising. -/
structure State where
  gpr : Vector Word 32
  pc : Word
  hi : Word
  lo : Word
  pl : Option (RegNum × Word)
  pb : Option Word
  stage : Stage
  cop0 : Cop0
  gte : Gte
  mem : List Host.Cell
  intc : Intc
  timers : Timers
  dma : Dma
  gpu : Gpu
  cdc : Cdc
  halt : Option HaltRecord
  host : HostSide
  params : Params
  deriving DecidableEq, Repr

/-- The outcome of a step of this machine. -/
abbrev Out := Host.Outcome State Fault Refusal

/-! ## Reset -/

/-- 10_state.md R63; EPC and BadVaddr: log 1. -/
def Cop0.reset : Cop0 where
  bpc := 0
  bda := 0
  jumpdest := 0
  dcic := 0
  badVaddr := 0
  bdam := 0
  bpcm := 0
  sr := 0x00400000#32
  cause := 0
  epc := 0

def Vec16.zero : Vec16 := ⟨0, 0, 0⟩
def Vec32.zero : Vec32 := ⟨0, 0, 0⟩
def Mat.zero : Mat := ⟨.zero, .zero, .zero⟩
def Point.zero : Point := ⟨0, 0⟩

/-- 10_state.md R66 leaves all 64 registers unspecified: log 2. -/
def Gte.reset : Gte where
  v0 := .zero
  v1 := .zero
  v2 := .zero
  rgbc := 0
  otz := 0
  ir0 := 0
  ir1 := 0
  ir2 := 0
  ir3 := 0
  sxy0 := .zero
  sxy1 := .zero
  sxy2 := .zero
  sz0 := 0
  sz1 := 0
  sz2 := 0
  sz3 := 0
  rgb0 := 0
  rgb1 := 0
  rgb2 := 0
  res1 := 0
  mac0 := 0
  mac1 := 0
  mac2 := 0
  mac3 := 0
  lzcs := 0
  rt := .zero
  tr := .zero
  llm := .zero
  bk := .zero
  lcm := .zero
  fc := .zero
  ofx := 0
  ofy := 0
  h := 0
  dqa := 0
  dqb := 0
  zsf3 := 0
  zsf4 := 0
  flag := 0

/-- 60_exceptions.md R660. -/
def Timer.reset : Timer := ⟨0, 0, 0, false, false⟩

/-- 10_state.md R67. -/
def Timers.reset : Timers := ⟨.reset, .reset, .reset, 0⟩

/-- 10_state.md R67. -/
def Channel.reset : Channel := ⟨0, 0, 0⟩

/-- 10_state.md R67. -/
def Dma.reset : Dma where
  ch := Vector.replicate 7 .reset
  dpcr := 0x07654321#32
  dicr := 0

/-- 47_gpu_commands.md R432, R481; `rect` and the cursor: log 24. -/
def Gpu.reset : Gpu where
  mode := .idle
  buf := []
  rect := ⟨0, 0, 0, 0⟩
  cx := 0
  cy := 0
  rem := 0
  stat := 0x14802000#32
  texwin := 0
  areaTl := 0
  areaBr := 0
  offset := 0
  rectFlip := 0
  dispStart := 0
  hRange := 0xC00200#24
  vRange := 0x40010#20
  readlatch := 0
  field := false
  log := []
  frame := []
  vram := []

/-- 48_cdrom_commands.md R502; no disc: log 21. -/
def Cdc.reset : Cdc where
  ix := 0
  dmode := .idle
  motor := true
  pos := 0
  target := none
  cmode := 0
  file := 0
  chan := 0
  param := []
  resp := []
  data := []
  sector := none
  hdr := none
  iflag := 0
  ien := 0
  queue := []
  latches := ⟨0, 0, 0, 0, 0, 0, 0⟩
  disc := none

/-- 10_state.md R68. -/
def HostSide.reset : HostSide where
  held := false
  attached := false
  brk := []
  tty := []
  ticks := []
  inv := 0
  boundary := false

/-- The machine right after reset (10_state.md R62 to R68, 70_reset_and_hazards.md R672); the general
registers, hi and lo: log 1. -/
def State.reset : State where
  gpr := Vector.replicate 32 0
  pc := Config.resetPc
  hi := 0
  lo := 0
  pl := none
  pb := none
  stage := .idle
  cop0 := .reset
  gte := .reset
  mem := []
  intc := ⟨0, 0⟩
  timers := .reset
  dma := .reset
  gpu := .reset
  cdc := .reset
  halt := none
  host := .reset
  params := Config.params

end Sys2Proof.Machine
end

