-- ==== Sys2Proof/Machine/AddressMap.lean ====
section
/-!
DEFINITION. The physical address map (20_memory.md R83), the virtual-to-physical mask (R72), and which
bytes are stub latches.
-/

namespace Sys2Proof.Machine

/-- Who owns a region and how it answers (20_memory.md R83, R84). -/
inductive Owner where
  | ram
  | scratchpad
  | rom
  | stub
  | intc
  | dma
  | timers
  | disc
  | graphics
  deriving DecidableEq, Repr

/-- One row of the map. -/
structure Region where
  base : Nat
  size : Nat
  owner : Owner
  deriving DecidableEq, Repr

/-- The table of 20_memory.md R83. -/
def addressMap : List Region :=
  [⟨0x00000000, 0x200000, .ram⟩,
   ⟨0x1F000000, 0x800000, .stub⟩,
   ⟨0x1F800000, 0x400, .scratchpad⟩,
   ⟨0x1F801000, 0x24, .stub⟩,
   ⟨0x1F801040, 0x20, .stub⟩,
   ⟨0x1F801060, 0x4, .stub⟩,
   ⟨0x1F801070, 0x8, .intc⟩,
   ⟨0x1F801080, 0x80, .dma⟩,
   ⟨0x1F801100, 0x30, .timers⟩,
   ⟨0x1F801800, 0x4, .disc⟩,
   ⟨0x1F801810, 0x8, .graphics⟩,
   ⟨0x1F801820, 0x8, .stub⟩,
   ⟨0x1F801C00, 0x400, .stub⟩,
   ⟨0x1F802000, 0x80, .stub⟩,
   ⟨0x1FC00000, 0x80000, .rom⟩,
   ⟨0xFFFE0130, 0x4, .stub⟩]

/-- An access width of the bus (20_memory.md R80). -/
inductive Width where
  | byte
  | half
  | word
  deriving DecidableEq, Repr

/-- Its number of bytes. -/
def Width.bytes : Width → Nat
  | .byte => 1
  | .half => 2
  | .word => 4

/-- The widths a region takes (20_memory.md R83). -/
def Owner.takes : Owner → Width → Bool
  | .ram, _ | .scratchpad, _ | .rom, _ | .stub, _ => true
  | .intc, n | .timers, n => n != .byte
  | .dma, n | .graphics, n => n == .word
  | .disc, n => n == .byte

/-- The whole access lies inside the region (20_memory.md R80). -/
def Region.holds (r : Region) (a n : Nat) : Bool :=
  r.base ≤ a && a + n ≤ r.base + r.size

/-- The one row that owns an access, if any (20_memory.md R80). -/
def resolve (a n : Nat) : Option Region :=
  addressMap.find? (·.holds a n)

/-- The owner of one byte. -/
def ownerOf (a : Nat) : Option Owner :=
  (resolve a 1).map (·.owner)

/-- The stub latches that lie among the DMA and timer registers (49_dma.md R561, 60_exceptions.md R661). -/
def deviceLatch (a : Nat) : Bool :=
  (0x1F801080 ≤ a && a < 0x1F8010F0 && a % 16 ≥ 12) || (0x1F8010F8 ≤ a && a < 0x1F801100) ||
    (0x1F801100 ≤ a && a < 0x1F801130 && a % 16 ≥ 12)

/-- A byte that is a stub latch (20_memory.md R84). -/
def isStub (a : Nat) : Bool :=
  ownerOf a == some .stub || deviceLatch a

/-- `phys(va)` (20_memory.md R72). -/
def phys (va : Word) : Word :=
  match (va.extractLsb' 29 3).toNat with
  | 4 => va &&& 0x7FFFFFFF#32
  | 5 => va &&& 0x1FFFFFFF#32
  | _ => va

end Sys2Proof.Machine
end

