-- ==== Sys2Proof/Machine/Memory.lean ====
section
/-!
DEFINITION. Lists of (key, value) pairs with rising keys, and the byte memory made of one (20_memory.md
R70, R71, R84). An unlisted stub-latch byte reads 0 (10_state.md R64); an unlisted byte of RAM, scratchpad
or ROM reads a free value (log 3), so an entry is never equal to what its address reads as unlisted.
-/

namespace Sys2Proof.Machine

/-! ## Rising lists -/

namespace Cells

variable {β : Type}

/-- The value listed at a key. -/
def get? : List (Nat × β) → Nat → Option β
  | [], _ => none
  | (k, v) :: t, a => if k = a then some v else get? t a

/-- List a value at a key, keeping the keys rising. -/
def put : List (Nat × β) → Nat → β → List (Nat × β)
  | [], a, v => [(a, v)]
  | (k, w) :: t, a, v =>
    if a < k then (a, v) :: (k, w) :: t
    else if a = k then (a, v) :: t
    else (k, w) :: put t a v

/-- Take a key out. -/
def erase : List (Nat × β) → Nat → List (Nat × β)
  | [], _ => []
  | (k, w) :: t, a => if k = a then t else (k, w) :: erase t a

/-- Every key is above `lo`, and the keys rise strictly. -/
def risingAbove (lo : Nat) : List (Nat × β) → Bool
  | [] => true
  | (k, _) :: t => lo < k && risingAbove k t

/-- The keys rise strictly. -/
def rising : List (Nat × β) → Bool
  | [] => true
  | (k, _) :: t => risingAbove k t

end Cells

/-! ## Bytes -/

/-- A byte memory: addresses rising. -/
abbrev Memory := List Host.Cell

namespace Memory

/-- What an unlisted address holds: 0 in a stub latch; elsewhere nothing is known of it. -/
def unlisted (a : Nat) : Option Byte :=
  if isStub a then some 0 else none

/-- What is known of the byte at an address. -/
def known (m : Memory) (a : Nat) : Option Byte :=
  match Cells.get? m a with
  | some b => some b
  | none => unlisted a

/-- The byte read at an address; the free value where nothing has been written (log 3). -/
def readByte (m : Memory) (a : Nat) : Byte :=
  (known m a).getD (Config.resetByte a)

/-- Write one byte; a value the address reads as unlisted is not listed. -/
def writeByte (m : Memory) (a : Nat) (b : Byte) : Memory :=
  if unlisted a = some b then Cells.erase m a else Cells.put m a b

/-- The canonical form: addresses rise and no entry says what an unlisted address says. -/
def wf (m : Memory) : Bool :=
  Cells.rising m && m.all fun c => !(unlisted c.1 == some c.2)

/-- A little-endian read of 1, 2 or 4 bytes, zero-extended (20_memory.md R70). -/
def read (m : Memory) (a : Nat) (n : Width) : Word :=
  match n with
  | .byte => (readByte m a).setWidth 32
  | .half => (readByte m (a + 1) ++ readByte m a).setWidth 32
  | .word => readByte m (a + 3) ++ readByte m (a + 2) ++ readByte m (a + 1) ++ readByte m a

/-- A little-endian write of the low 1, 2 or 4 bytes of `v` (20_memory.md R70, R84). -/
def write (m : Memory) (a : Nat) (n : Width) (v : Word) : Memory :=
  match n with
  | .byte => writeByte m a (v.extractLsb' 0 8)
  | .half => writeByte (writeByte m a (v.extractLsb' 0 8)) (a + 1) (v.extractLsb' 8 8)
  | .word =>
    writeByte
      (writeByte
        (writeByte (writeByte m a (v.extractLsb' 0 8)) (a + 1) (v.extractLsb' 8 8))
        (a + 2) (v.extractLsb' 16 8))
      (a + 3) (v.extractLsb' 24 8)

/-- The bytes of a list written from an address up. -/
def writeBytes (m : Memory) (a : Nat) : List Byte → Memory
  | [] => m
  | b :: bs => writeBytes (writeByte m a b) (a + 1) bs

end Memory

end Sys2Proof.Machine
end

