-- ==== Sys2Proof/Machine/Ops.lean ====
section
/-!
DEFINITION. The named operations over the state: one update per component, general registers, the two
delay latches, interrupts, coprocessor-0 registers, taking an exception and returning from one.
-/

namespace Sys2Proof.Machine

namespace State

/-! ## One update per component -/

def setPc (s : State) (v : Word) : State := { s with pc := v }
def setHi (s : State) (v : Word) : State := { s with hi := v }
def setLo (s : State) (v : Word) : State := { s with lo := v }
def setStage (s : State) (v : Stage) : State := { s with stage := v }
def setCop0 (s : State) (v : Cop0) : State := { s with cop0 := v }
def setGte (s : State) (v : Gte) : State := { s with gte := v }
def setMem (s : State) (v : Memory) : State := { s with mem := v }
def setIntc (s : State) (v : Intc) : State := { s with intc := v }
def setTimers (s : State) (v : Timers) : State := { s with timers := v }
def setDma (s : State) (v : Dma) : State := { s with dma := v }
def setGpu (s : State) (v : Gpu) : State := { s with gpu := v }
def setCdc (s : State) (v : Cdc) : State := { s with cdc := v }
def setHalt (s : State) (v : Option HaltRecord) : State := { s with halt := v }
def setHost (s : State) (v : HostSide) : State := { s with host := v }

/-! ## General registers (10_state.md R20, R21, R33) -/

/-- `x[r]`: register 0 reads as 0. -/
def reg (s : State) (r : RegNum) : Word :=
  if r = 0 then 0 else s.gpr[r.toNat]'(r.isLt)

/-- The register file with `x[r]` written; a write to register 0 is discarded. -/
def gprWith (s : State) (r : RegNum) (v : Word) : Vector Word 32 :=
  if r = 0 then s.gpr else s.gpr.set r.toNat v r.isLt

/-- A register write that no instruction makes at once (the load commit, the host). -/
def setGpr (s : State) (r : RegNum) (v : Word) : State :=
  { s with gpr := s.gprWith r v }

/-- `x[r] <- v` of an instruction: written at once, and remembered for 10_state.md R42 (d). -/
def setReg (s : State) (r : RegNum) (v : Word) : State :=
  { s with gpr := s.gprWith r v, stage := { s.stage with wrote := some r } }

/-- `PL <- (r, v)` (10_state.md R31). -/
def postLoad (s : State) (r : RegNum) (v : Word) : State := { s with pl := some (r, v) }

/-- `PB <- t` (10_state.md R32). -/
def postBranch (s : State) (t : Word) : State := { s with pb := some t }

/-! ## Status and cause (10_state.md R29, R30) -/

/-- SR.IEc. -/
def iec (s : State) : Bool := s.cop0.sr.getLsbD 0
/-- SR.IsC. -/
def isolated (s : State) : Bool := s.cop0.sr.getLsbD 16
/-- SR.BEV. -/
def bev (s : State) : Bool := s.cop0.sr.getLsbD 22

/-- The hardware interrupt input CAUSE.IP[2], never stored (60_exceptions.md R621). -/
def ip2 (s : State) : Bool := (s.intc.istat &&& s.intc.imask) != 0

/-- CAUSE as it reads: the stored fields, and bit 10 live (10_state.md R30). -/
def readCause (s : State) : Word :=
  (s.cop0.cause &&& 0xB000037C#32) ||| (if s.ip2 then 0x400#32 else 0)

/-- `interrupt_pending()` (60_exceptions.md R620). -/
def interruptPending (s : State) : Bool :=
  s.iec && (s.cop0.sr.extractLsb' 8 8 &&& s.readCause.extractLsb' 8 8) != 0

/-- The state as step 7 tests it: an I_STAT bit raised within the step is first tested in the next one
(60_exceptions.md R624; log 14). -/
def testedIrqs (s : State) : State :=
  s.setIntc { s.intc with istat := s.intc.istat &&& ~~~s.stage.young }

/-- Set bit `n` of I_STAT when `on` (60_exceptions.md R623). -/
def raiseIrq (s : State) (n : Nat) (on : Bool) : State :=
  s.setIntc { s.intc with istat := s.intc.istat ||| (BitVec.ofBool on).setWidth 11 <<< n }

/-! ## Coprocessor-0 registers (10_state.md R28) -/

/-- A register as MFC0 reads it (44_system_cop.md R283); `none` for a number that does not exist. -/
def readCop0 (s : State) (n : RegNum) : Option Word :=
  match n.toNat with
  | 3 => some s.cop0.bpc
  | 5 => some s.cop0.bda
  | 6 => some s.cop0.jumpdest
  | 7 => some s.cop0.dcic
  | 8 => some s.cop0.badVaddr
  | 9 => some s.cop0.bdam
  | 11 => some s.cop0.bpcm
  | 12 => some s.cop0.sr
  | 13 => some s.readCause
  | 14 => some s.cop0.epc
  | 15 => some s.params.prid
  | _ => none

/-- The registers after an MTC0 (44_system_cop.md R284); `none` for a number that does not exist. -/
def writeCop0 (c : Cop0) (n : RegNum) (v : Word) : Option Cop0 :=
  match n.toNat with
  | 3 => some { c with bpc := v }
  | 5 => some { c with bda := v }
  | 6 => some { c with jumpdest := v }
  | 7 => some { c with dcic := v }
  | 9 => some { c with bdam := v }
  | 11 => some { c with bpcm := v }
  | 12 => some { c with sr := v }
  | 13 => some { c with cause := (c.cause &&& ~~~0x300#32) ||| (v &&& 0x300#32) }
  | 8 | 14 | 15 => some c
  | _ => none

end State

/-! ## Taking an exception (60_exceptions.md R610) -/

/-- The cause code (60_exceptions.md R600). -/
def Exc.code : Exc → BitVec 5
  | .int => 0#5
  | .adEL _ => 4#5
  | .adES _ => 5#5
  | .sys => 8#5
  | .bp => 9#5
  | .ri => 10#5
  | .ov => 12#5

/-- The failing address an exception reports, for the two address errors (60_exceptions.md R612). -/
def Exc.badvaddr : Exc → Option Word
  | .adEL a | .adES a => some a
  | _ => none

/-- SR at entry: the two low pairs move up, the current pair becomes 0 (60_exceptions.md R610 (1)). -/
def pushSr (sr : Word) : Word :=
  (sr &&& ~~~0x3F#32) ||| ((sr &&& 0xF#32) <<< 2)

/-- SR at RFE: `SR[3:0] <- SR[5:2]`, bits 31:4 unchanged (44_system_cop.md R285, whose example disagrees with
its operation: log 27). -/
def popSr (sr : Word) : Word :=
  (sr &&& ~~~0xF#32) ||| ((sr >>> 2) &&& 0xF#32)

/-- CAUSE at entry: ExcCode, BD and CE = 0, everything else unchanged (60_exceptions.md R610 (2)). -/
def entryCause (cause : Word) (code : BitVec 5) (bd : Bool) : Word :=
  (cause &&& ~~~0xB000007C#32) ||| (code.setWidth 32 <<< 2) ||| ((BitVec.ofBool bd).setWidth 32 <<< 31)

/-- The vector: ROM when SR.BEV is 1, RAM otherwise (60_exceptions.md R611). -/
def State.vector (s : State) : Word :=
  if s.bev then Config.vecRom else Config.vecRam

/-- `enter_exception(E, epc, bd)` with its caller's part: SR, CAUSE, EPC, BadVaddr, the posted branch
dropped, PC at the vector (60_exceptions.md R610). -/
def enterException (e : Exc) (epc : Word) (bd : Bool) (s : State) : State :=
  { s with
    cop0 := { s.cop0 with
      sr := pushSr s.cop0.sr
      cause := entryCause s.cop0.cause e.code bd
      epc := epc
      badVaddr := e.badvaddr.getD s.cop0.badVaddr }
    pb := none
    pc := s.vector }

/-- The exception entered within a step, which then takes no interrupt (10_state.md R40 step 7). -/
def raiseAt (e : Exc) (epc : Word) (bd : Bool) (s : State) : Out :=
  .next { enterException e epc bd s with stage := { s.stage with excepted := true } }

/-- `raise E` during execute: the instruction at PC is abandoned and the exception entered, EPC at the
branch when the instruction sits in a delay slot (10_state.md R40 step 7, R47). -/
def raise (e : Exc) (s : State) : Out :=
  let inDelay := s.stage.dpb.isSome
  raiseAt e (if inDelay then s.pc - 4#32 else s.pc) inDelay s

/-- The return from an exception: RFE pops the SR stack; the jump beside it is software's
(60_exceptions.md R630, 44_system_cop.md R285). -/
def returnFromException (s : State) : State :=
  s.setCop0 { s.cop0 with sr := popSr s.cop0.sr }

end Sys2Proof.Machine
end

