-- ==== Sys2Proof/Machine/Operands.lean ====
section
/-!
DEFINITION. The operand forms: immediates (30_encoding.md R123), the one addressing mode (42_loadstore.md
R220), alignment (20_memory.md R92), branch and jump targets (43_branch_jump.md R251), and the merges of
the unaligned-word helpers (42_loadstore.md R230 to R237).
-/

namespace Sys2Proof.Machine

/-! ## Immediates (30_encoding.md R123) -/

/-- The signed immediate. -/
def simm (imm : BitVec 16) : Word := imm.signExtend 32

/-- The logical immediate. -/
def zimm (imm : BitVec 16) : Word := imm.setWidth 32

/-- The upper immediate. -/
def upper (imm : BitVec 16) : Word := imm ++ 0#16

/-- The amount of a variable shift: bits 4:0. -/
def shiftAmount (v : Word) : Nat := (v.extractLsb' 0 5).toNat

/-! ## Addresses -/

/-- `ea <- x[rs] + sext(imm)` (42_loadstore.md R220). -/
def ea (s : State) (rs : RegNum) (imm : BitVec 16) : Word := s.reg rs + simm imm

/-- The access is below its natural alignment (20_memory.md R90, R92). -/
def misaligned (va : Word) : Width → Bool
  | .byte => false
  | .half => va.extractLsb' 0 1 != 0
  | .word => va.extractLsb' 0 2 != 0

/-- The aligned word that contains an address (42_loadstore.md R230). -/
def wordBase (va : Word) : Word := va &&& 0xFFFFFFFC#32

/-- `ea[1:0]`. -/
def byteLane (va : Word) : Nat := (va.extractLsb' 0 2).toNat

/-! ## Branch and jump targets (43_branch_jump.md R251, R252) -/

/-- `(pc + 4) + sext(imm || 00)`. -/
def branchTarget (pc : Word) (imm : BitVec 16) : Word :=
  pc + 4#32 + (simm imm <<< 2)

/-- `(pc + 4)[31:28] || target || 00`. -/
def jumpTarget (pc : Word) (target : BitVec 26) : Word :=
  (pc + 4#32).extractLsb' 28 4 ++ target ++ 0#2

/-- The return address of a link. -/
def linkAddress (pc : Word) : Word := pc + 8#32

/-! ## Unaligned words (42_loadstore.md R230 to R232, R236, R237) -/

/-- What LWL and LWR merge into: the value the previous instruction posted to the same register, else the
register (R232). -/
def mergeSource (s : State) (rt : RegNum) : Word :=
  match s.stage.dpl with
  | some (r, v) => if r = rt then v else s.reg rt
  | none => s.reg rt

/-- The result of LWL for lane `k` (R230). -/
def mergeLwl (k : Nat) (cur w : Word) : Word :=
  match k with
  | 0 => (cur &&& 0x00FFFFFF#32) ||| (w <<< 24)
  | 1 => (cur &&& 0x0000FFFF#32) ||| (w <<< 16)
  | 2 => (cur &&& 0x000000FF#32) ||| (w <<< 8)
  | _ => w

/-- The result of LWR for lane `k` (R231). -/
def mergeLwr (k : Nat) (cur w : Word) : Word :=
  match k with
  | 0 => w
  | 1 => (cur &&& 0xFF000000#32) ||| (w >>> 8)
  | 2 => (cur &&& 0xFFFF0000#32) ||| (w >>> 16)
  | _ => (cur &&& 0xFFFFFF00#32) ||| (w >>> 24)

/-- The word SWL stores for lane `k` over the old word `m` (R236). -/
def mergeSwl (k : Nat) (m v : Word) : Word :=
  match k with
  | 0 => (m &&& 0xFFFFFF00#32) ||| (v >>> 24)
  | 1 => (m &&& 0xFFFF0000#32) ||| (v >>> 16)
  | 2 => (m &&& 0xFF000000#32) ||| (v >>> 8)
  | _ => v

/-- The word SWR stores for lane `k` over the old word `m` (R237). -/
def mergeSwr (k : Nat) (m v : Word) : Word :=
  match k with
  | 0 => v
  | 1 => (m &&& 0x000000FF#32) ||| (v <<< 8)
  | 2 => (m &&& 0x0000FFFF#32) ||| (v <<< 16)
  | _ => (m &&& 0x00FFFFFF#32) ||| (v <<< 24)

end Sys2Proof.Machine
end

