-- ==== Sys2Proof/Machine/Branch.lean ====
section
/-!
DEFINITION. Branches and jumps (43_branch_jump.md). A taken branch posts its target; it never writes the pc
(R250).
-/

namespace Sys2Proof.Machine

/-- Post the target when the condition holds (R250). -/
def branchIf (c : Bool) (target : Word) (s : State) : Out :=
  .next (if c then s.postBranch target else s)

/-- The link, then the branch: condition and target were taken before the link is written (R252). -/
def linkThen (d : RegNum) (c : Bool) (target : Word) (s : State) : Out :=
  branchIf c target (s.setReg d (linkAddress s.pc))

/-! ## Conditional branches -/

/-- BEQ (R253). -/
def execBeq (rs rt : RegNum) (imm : BitVec 16) (s : State) : Out :=
  branchIf (s.reg rs == s.reg rt) (branchTarget s.pc imm) s

/-- BNE (R254). -/
def execBne (rs rt : RegNum) (imm : BitVec 16) (s : State) : Out :=
  branchIf (s.reg rs != s.reg rt) (branchTarget s.pc imm) s

/-- BLEZ (R255). -/
def execBlez (rs : RegNum) (imm : BitVec 16) (s : State) : Out :=
  branchIf ((s.reg rs).sle 0) (branchTarget s.pc imm) s

/-- BGTZ (R256). -/
def execBgtz (rs : RegNum) (imm : BitVec 16) (s : State) : Out :=
  branchIf (BitVec.slt 0 (s.reg rs)) (branchTarget s.pc imm) s

/-- BLTZ (R257). -/
def execBltz (rs : RegNum) (imm : BitVec 16) (s : State) : Out :=
  branchIf ((s.reg rs).getLsbD 31) (branchTarget s.pc imm) s

/-- BGEZ (R258). -/
def execBgez (rs : RegNum) (imm : BitVec 16) (s : State) : Out :=
  branchIf (!(s.reg rs).getLsbD 31) (branchTarget s.pc imm) s

/-- BLTZAL (R259). -/
def execBltzal (rs : RegNum) (imm : BitVec 16) (s : State) : Out :=
  linkThen 31#5 ((s.reg rs).getLsbD 31) (branchTarget s.pc imm) s

/-- BGEZAL (R260). -/
def execBgezal (rs : RegNum) (imm : BitVec 16) (s : State) : Out :=
  linkThen 31#5 (!(s.reg rs).getLsbD 31) (branchTarget s.pc imm) s

/-! ## Jumps -/

/-- J (R261). -/
def execJ (target : BitVec 26) (s : State) : Out := branchIf true (jumpTarget s.pc target) s

/-- JAL (R262). -/
def execJal (target : BitVec 26) (s : State) : Out := linkThen 31#5 true (jumpTarget s.pc target) s

/-- JR (R263). -/
def execJr (rs : RegNum) (s : State) : Out := branchIf true (s.reg rs) s

/-- JALR (R264). -/
def execJalr (rd rs : RegNum) (s : State) : Out := linkThen rd true (s.reg rs) s

end Sys2Proof.Machine
end

