-- ==== Sys2Proof/Machine/Flags.lean ====
section
/-!
DEFINITION. Flag computations. The processor has no flags (10_state.md R27): signed overflow is a trap
condition (40_alu.md R151). The coprocessor's FLAG register (45_gte_state_arith.md R330) and the checks that
set its bits are here.
-/

namespace Sys2Proof.Machine

/-! ## Signed overflow (40_alu.md R151) -/

/-- Signed overflow of `a + b`. -/
def addOverflows (a b : Word) : Bool :=
  a.getLsbD 31 == b.getLsbD 31 && (a + b).getLsbD 31 != a.getLsbD 31

/-- Signed overflow of `a - b`. -/
def subOverflows (a b : Word) : Bool :=
  a.getLsbD 31 != b.getLsbD 31 && (a - b).getLsbD 31 != a.getLsbD 31

/-- A comparison result in 32 bits (40_alu.md R151). -/
def boolWord (b : Bool) : Word := if b then 1 else 0

/-! ## FLAG (45_gte_state_arith.md R330) -/

/-- FLAG as it reads: bits 30:12 stored, bits 11:0 zero, bit 31 the OR of bits 30..23 and 18..13. -/
def readFlag (flag : BitVec 19) : Word :=
  let low : Word := 0#1 ++ flag ++ 0#12
  if (low &&& 0x7F87E000#32) != 0 then low ||| 0x80000000#32 else low

/-- Set bit `n` of FLAG (12 ≤ n ≤ 30) when `on`. -/
def setFlagBit (flag : BitVec 19) (n : Nat) (on : Bool) : BitVec 19 :=
  flag ||| (BitVec.ofBool on).setWidth 19 <<< (n - 12)

/-- `clamp(v, lo, hi)`. -/
def clamp (v lo hi : Int) : Int :=
  if v < lo then lo else if hi < v then hi else v

/-- The clamp changes the value. -/
def clamps (v lo hi : Int) : Bool :=
  v < lo || hi < v

/-- A partial sum for MACi exceeds the positive 44-bit limit (45_gte_state_arith.md R340). -/
def above44 (x : Int) : Bool := x > 2 ^ 43 - 1

/-- A partial sum for MACi is below the negative 44-bit limit (R340). -/
def below44 (x : Int) : Bool := x < -(2 ^ 43)

/-- `x` wrapped to signed 44 bits (R340). -/
def wrap44 (x : Int) : Int := (x + 2 ^ 43) % 2 ^ 44 - 2 ^ 43

/-- A MAC0 value exceeds the positive 32-bit limit (R341). -/
def above32 (x : Int) : Bool := x > 2 ^ 31 - 1

/-- A MAC0 value is below the negative 32-bit limit (R341). -/
def below32 (x : Int) : Bool := x < -(2 ^ 31)

end Sys2Proof.Machine
end

