-- ==== Sys2Proof/Machine/Gte.lean ====
section
/-!
DEFINITION. Coprocessor 2: reading and writing its registers (45_gte_state_arith.md R321 to R327) and the
arithmetic primitives its commands are made of (R340 to R351). Quantities are exact integers; a register
stores their low bits.
-/

namespace Sys2Proof.Machine

/-! ## Packing -/

/-- Two s16 halves, the second in the high bits. -/
def pair (hi lo : BitVec 16) : Word := hi ++ lo
/-- Bits 15:0. -/
def lowHalf (v : Word) : BitVec 16 := v.extractLsb' 0 16
/-- Bits 31:16. -/
def highHalf (v : Word) : BitVec 16 := v.extractLsb' 16 16
/-- `sext_32` of an s16 field. -/
def sx16 (v : BitVec 16) : Word := v.signExtend 32
/-- `zext_32` of a u16 field. -/
def zx16 (v : BitVec 16) : Word := v.setWidth 32

/-- A screen point as one register. -/
def Point.word (p : Point) : Word := pair p.sy p.sx
/-- A screen point from one register. -/
def Point.ofWord (v : Word) : Point := ⟨lowHalf v, highHalf v⟩

/-- The number of leading zero bits among the low `n` bits of a number (R324, R350). -/
def leadingZeros : Nat → Nat → Nat
  | 0, _ => 0
  | n + 1, v => if v.testBit n then 0 else 1 + leadingZeros n v

/-- LZCR: leading bits of LZCS equal to its sign bit (R324). -/
def leadingCount (v : Word) : Nat :=
  leadingZeros 32 (if v.getLsbD 31 then (~~~v).toNat else v.toNat)

/-- One 5-bit component of IRGB: `clamp(s(v) SAR 7, 0, 0x1F)` (R322). -/
def c5 (v : BitVec 16) : Word := BitVec.ofInt 32 (clamp (v.toInt >>> 7) 0 0x1F)

/-- The 5:5:5 view of IR1..IR3 (R322). -/
def Gte.irgb (g : Gte) : Word := c5 g.ir1 ||| (c5 g.ir2 <<< 5) ||| (c5 g.ir3 <<< 10)

/-! ## Register access (R322, R323, R326, R327) -/

/-- `gte_read_data(n)` (R322). -/
def Gte.readData (g : Gte) (n : RegNum) : Word :=
  match n.toNat with
  | 0 => pair g.v0.y g.v0.x
  | 1 => sx16 g.v0.z
  | 2 => pair g.v1.y g.v1.x
  | 3 => sx16 g.v1.z
  | 4 => pair g.v2.y g.v2.x
  | 5 => sx16 g.v2.z
  | 6 => g.rgbc
  | 7 => zx16 g.otz
  | 8 => sx16 g.ir0
  | 9 => sx16 g.ir1
  | 10 => sx16 g.ir2
  | 11 => sx16 g.ir3
  | 12 => g.sxy0.word
  | 13 => g.sxy1.word
  | 14 => g.sxy2.word
  | 15 => g.sxy2.word
  | 16 => zx16 g.sz0
  | 17 => zx16 g.sz1
  | 18 => zx16 g.sz2
  | 19 => zx16 g.sz3
  | 20 => g.rgb0
  | 21 => g.rgb1
  | 22 => g.rgb2
  | 23 => g.res1
  | 24 => g.mac0
  | 25 => g.mac1
  | 26 => g.mac2
  | 27 => g.mac3
  | 28 => g.irgb
  | 29 => g.irgb
  | 30 => g.lzcs
  | _ => BitVec.ofNat 32 (leadingCount g.lzcs)

/-- `gte_write_data(n, v)` (R323). -/
def Gte.writeData (g : Gte) (n : RegNum) (v : Word) : Gte :=
  match n.toNat with
  | 0 => { g with v0 := ⟨lowHalf v, highHalf v, g.v0.z⟩ }
  | 1 => { g with v0 := { g.v0 with z := lowHalf v } }
  | 2 => { g with v1 := ⟨lowHalf v, highHalf v, g.v1.z⟩ }
  | 3 => { g with v1 := { g.v1 with z := lowHalf v } }
  | 4 => { g with v2 := ⟨lowHalf v, highHalf v, g.v2.z⟩ }
  | 5 => { g with v2 := { g.v2 with z := lowHalf v } }
  | 6 => { g with rgbc := v }
  | 7 => { g with otz := lowHalf v }
  | 8 => { g with ir0 := lowHalf v }
  | 9 => { g with ir1 := lowHalf v }
  | 10 => { g with ir2 := lowHalf v }
  | 11 => { g with ir3 := lowHalf v }
  | 12 => { g with sxy0 := .ofWord v }
  | 13 => { g with sxy1 := .ofWord v }
  | 14 => { g with sxy2 := .ofWord v }
  | 15 => { g with sxy0 := g.sxy1, sxy1 := g.sxy2, sxy2 := .ofWord v }
  | 16 => { g with sz0 := lowHalf v }
  | 17 => { g with sz1 := lowHalf v }
  | 18 => { g with sz2 := lowHalf v }
  | 19 => { g with sz3 := lowHalf v }
  | 20 => { g with rgb0 := v }
  | 21 => { g with rgb1 := v }
  | 22 => { g with rgb2 := v }
  | 23 => { g with res1 := v }
  | 24 => { g with mac0 := v }
  | 25 => { g with mac1 := v }
  | 26 => { g with mac2 := v }
  | 27 => { g with mac3 := v }
  | 28 =>
    { g with
      ir1 := (v.extractLsb' 0 5).setWidth 16 <<< 7
      ir2 := (v.extractLsb' 5 5).setWidth 16 <<< 7
      ir3 := (v.extractLsb' 10 5).setWidth 16 <<< 7 }
  | 30 => { g with lzcs := v }
  | _ => g

/-- `gte_read_ctrl(n)` (R326). -/
def Gte.readCtrl (g : Gte) (n : RegNum) : Word :=
  match n.toNat with
  | 0 => pair g.rt.r1.y g.rt.r1.x
  | 1 => pair g.rt.r2.x g.rt.r1.z
  | 2 => pair g.rt.r2.z g.rt.r2.y
  | 3 => pair g.rt.r3.y g.rt.r3.x
  | 4 => sx16 g.rt.r3.z
  | 5 => g.tr.x
  | 6 => g.tr.y
  | 7 => g.tr.z
  | 8 => pair g.llm.r1.y g.llm.r1.x
  | 9 => pair g.llm.r2.x g.llm.r1.z
  | 10 => pair g.llm.r2.z g.llm.r2.y
  | 11 => pair g.llm.r3.y g.llm.r3.x
  | 12 => sx16 g.llm.r3.z
  | 13 => g.bk.x
  | 14 => g.bk.y
  | 15 => g.bk.z
  | 16 => pair g.lcm.r1.y g.lcm.r1.x
  | 17 => pair g.lcm.r2.x g.lcm.r1.z
  | 18 => pair g.lcm.r2.z g.lcm.r2.y
  | 19 => pair g.lcm.r3.y g.lcm.r3.x
  | 20 => sx16 g.lcm.r3.z
  | 21 => g.fc.x
  | 22 => g.fc.y
  | 23 => g.fc.z
  | 24 => g.ofx
  | 25 => g.ofy
  | 26 => sx16 g.h
  | 27 => sx16 g.dqa
  | 28 => g.dqb
  | 29 => sx16 g.zsf3
  | 30 => sx16 g.zsf4
  | _ => readFlag g.flag

/-- Element pair writes of a matrix: register `k` of its five (R325). -/
def Mat.write (m : Mat) (k : Nat) (v : Word) : Mat :=
  match k with
  | 0 => { m with r1 := ⟨lowHalf v, highHalf v, m.r1.z⟩ }
  | 1 => { m with r1 := { m.r1 with z := lowHalf v }, r2 := { m.r2 with x := highHalf v } }
  | 2 => { m with r2 := { m.r2 with y := lowHalf v, z := highHalf v } }
  | 3 => { m with r3 := ⟨lowHalf v, highHalf v, m.r3.z⟩ }
  | _ => { m with r3 := { m.r3 with z := lowHalf v } }

/-- `gte_write_ctrl(n, v)` (R327). -/
def Gte.writeCtrl (g : Gte) (n : RegNum) (v : Word) : Gte :=
  match n.toNat with
  | 0 => { g with rt := g.rt.write 0 v }
  | 1 => { g with rt := g.rt.write 1 v }
  | 2 => { g with rt := g.rt.write 2 v }
  | 3 => { g with rt := g.rt.write 3 v }
  | 4 => { g with rt := g.rt.write 4 v }
  | 5 => { g with tr := { g.tr with x := v } }
  | 6 => { g with tr := { g.tr with y := v } }
  | 7 => { g with tr := { g.tr with z := v } }
  | 8 => { g with llm := g.llm.write 0 v }
  | 9 => { g with llm := g.llm.write 1 v }
  | 10 => { g with llm := g.llm.write 2 v }
  | 11 => { g with llm := g.llm.write 3 v }
  | 12 => { g with llm := g.llm.write 4 v }
  | 13 => { g with bk := { g.bk with x := v } }
  | 14 => { g with bk := { g.bk with y := v } }
  | 15 => { g with bk := { g.bk with z := v } }
  | 16 => { g with lcm := g.lcm.write 0 v }
  | 17 => { g with lcm := g.lcm.write 1 v }
  | 18 => { g with lcm := g.lcm.write 2 v }
  | 19 => { g with lcm := g.lcm.write 3 v }
  | 20 => { g with lcm := g.lcm.write 4 v }
  | 21 => { g with fc := { g.fc with x := v } }
  | 22 => { g with fc := { g.fc with y := v } }
  | 23 => { g with fc := { g.fc with z := v } }
  | 24 => { g with ofx := v }
  | 25 => { g with ofy := v }
  | 26 => { g with h := lowHalf v }
  | 27 => { g with dqa := lowHalf v }
  | 28 => { g with dqb := v }
  | 29 => { g with zsf3 := lowHalf v }
  | 30 => { g with zsf4 := lowHalf v }
  | _ => { g with flag := v.extractLsb' 12 19 }

/-! ## Vectors of exact integers (R328) -/

/-- Three exact integers. -/
structure IVec where
  x : Int
  y : Int
  z : Int
  deriving DecidableEq, Repr

def Vec16.ints (v : Vec16) : IVec := ⟨v.x.toInt, v.y.toInt, v.z.toInt⟩
def Vec32.ints (v : Vec32) : IVec := ⟨v.x.toInt, v.y.toInt, v.z.toInt⟩
/-- The vector IR = (IR1, IR2, IR3). -/
def Gte.ir (g : Gte) : IVec := ⟨g.ir1.toInt, g.ir2.toInt, g.ir3.toInt⟩
/-- The vector MAC = (MAC1, MAC2, MAC3). -/
def Gte.mac (g : Gte) : IVec := ⟨g.mac1.toInt, g.mac2.toInt, g.mac3.toInt⟩

/-! ## Primitives (R340 to R347) -/

/-- Set FLAG bit `n` when `on`. -/
def Gte.flagIf (g : Gte) (n : Nat) (on : Bool) : Gte := { g with flag := setFlagBit g.flag n on }

/-- `A_i(x)`: the 44-bit accumulator check (R340). -/
def Gte.acc (g : Gte) (i : Nat) (x : Int) : Int × Gte :=
  (wrap44 x, (g.flagIf (31 - i) (above44 x)).flagIf (28 - i) (below44 x))

/-- `A_i(A_i(A_i(t + a) + b) + c)`: a sum checked after each addition, left to right (R340). -/
def Gte.acc3 (g : Gte) (i : Nat) (t a b c : Int) : Int × Gte :=
  let r1 := g.acc i (t + a)
  let r2 := r1.2.acc i (r1.1 + b)
  r2.2.acc i (r2.1 + c)

/-- `F(x)`: the 32-bit scalar check (R341); the value itself is unchanged. -/
def Gte.scalar (g : Gte) (x : Int) : Gte :=
  (g.flagIf 16 (above32 x)).flagIf 15 (below32 x)

/-- `MAC0 <- F(x)[31:0]`. -/
def Gte.setMac0 (g : Gte) (x : Int) : Gte := { g.scalar x with mac0 := BitVec.ofInt 32 x }

/-- The shift of a command word: `sh = 12 * sf`. -/
def shift (sf : Bool) (x : Int) : Int := if sf then x >>> 12 else x

/-- `setMAC_i(x)` (R342). -/
def Gte.setMac (g : Gte) (sf : Bool) (i : Nat) (x : Int) : Gte :=
  let v := BitVec.ofInt 32 (shift sf x)
  match i with
  | 1 => { g with mac1 := v }
  | 2 => { g with mac2 := v }
  | _ => { g with mac3 := v }

/-- `MACi`, signed. -/
def Gte.getMac (g : Gte) (i : Nat) : Int :=
  match i with
  | 1 => g.mac1.toInt
  | 2 => g.mac2.toInt
  | _ => g.mac3.toInt

/-- The lower limit of IR1..IR3: 0 with `l`, else -0x8000 (R342). -/
def irMin (l : Bool) : Int := if l then 0 else -0x8000

/-- Store into IRi without a flag. -/
def Gte.putIr (g : Gte) (i : Nat) (v : Int) : Gte :=
  let w := BitVec.ofInt 16 v
  match i with
  | 1 => { g with ir1 := w }
  | 2 => { g with ir2 := w }
  | _ => { g with ir3 := w }

/-- `setIR_i(v, l)`: clamp, store, flag bit `25 - i` (R342). -/
def Gte.setIr (g : Gte) (i : Nat) (v : Int) (l : Bool) : Gte :=
  (g.putIr i (clamp v (irMin l) 0x7FFF)).flagIf (25 - i) (clamps v (irMin l) 0x7FFF)

/-- `setMACIR_i(x, l)` (R342). -/
def Gte.setMacIr (g : Gte) (sf : Bool) (i : Nat) (x : Int) (l : Bool) : Gte :=
  let g1 := g.setMac sf i x
  g1.setIr i (g1.getMac i) l

/-- `setMACIR_i` for i = 1, 2, 3. -/
def Gte.setMacIr3 (g : Gte) (sf : Bool) (v : IVec) (l : Bool) : Gte :=
  ((g.setMacIr sf 1 v.x l).setMacIr sf 2 v.y l).setMacIr sf 3 v.z l

/-! ## Matrix times vector (R343) -/

/-- Three checked values for i = 1, 2, 3, each computed by `f i` from the state the one before left. -/
def Gte.three (g : Gte) (f : Nat → Gte → Int × Gte) : IVec × Gte :=
  let a := f 1 g
  let b := f 2 a.2
  let c := f 3 b.2
  (⟨a.1, b.1, c.1⟩, c.2)

/-- Row `i` of a matrix. -/
def Mat.row (m : Mat) (i : Nat) : IVec :=
  match i with
  | 1 => m.r1.ints
  | 2 => m.r2.ints
  | _ => m.r3.ints

/-- Component `i` of a vector. -/
def IVec.at (v : IVec) (i : Nat) : Int :=
  match i with
  | 1 => v.x
  | 2 => v.y
  | _ => v.z

/-- The zero vector. -/
def IVec.zero : IVec := ⟨0, 0, 0⟩

/-- The checked sums `A_i(A_i(A_i(T[i] * 2^12 + M[i][1] * V[1]) + M[i][2] * V[2]) + M[i][3] * V[3])`, which
R343 and R381 share. -/
def Gte.product (g : Gte) (m : Mat) (t v : IVec) : IVec × Gte :=
  g.three fun i g =>
    g.acc3 i (t.at i * 2 ^ 12) ((m.row i).x * v.x) ((m.row i).y * v.y) ((m.row i).z * v.z)

/-- `mulmat(M, T, V, l)` (R343). -/
def Gte.mulmat (g : Gte) (sf : Bool) (m : Mat) (t v : IVec) (l : Bool) : Gte :=
  let r := g.product m t v
  r.2.setMacIr3 sf r.1 l

/-! ## Output stages (R344 to R347) -/

/-- A byte of a colour register. -/
def colourByte (c : Word) (k : Nat) : Int := (c.extractLsb' (8 * k) 8).toNat

/-- R, G, B of a colour register. -/
def rgbOf (c : Word) : IVec := ⟨colourByte c 0, colourByte c 1, colourByte c 2⟩

/-- `c_i(s(MACi) SAR 4)` as a byte (R344). -/
def channel (v : Word) : BitVec 8 := BitVec.ofInt 8 (clamp (v.toInt >>> 4) 0 0xFF)

/-- The same clamp changes the value. -/
def channelClamps (v : Word) : Bool := clamps (v.toInt >>> 4) 0 0xFF

/-- `push_rgb()` (R344). -/
def Gte.pushRgb (g : Gte) : Gte :=
  let g1 := ((g.flagIf 21 (channelClamps g.mac1)).flagIf 20 (channelClamps g.mac2)).flagIf 19
    (channelClamps g.mac3)
  { g1 with
    rgb0 := g.rgb1
    rgb1 := g.rgb2
    rgb2 := g.rgbc.extractLsb' 24 8 ++ channel g.mac3 ++ channel g.mac2 ++ channel g.mac1 }

/-- `push_sz(v)` (R345). -/
def Gte.pushSz (g : Gte) (v : Int) : Gte :=
  let g1 := g.flagIf 18 (clamps v 0 0xFFFF)
  { g1 with sz0 := g.sz1, sz1 := g.sz2, sz2 := g.sz3, sz3 := BitVec.ofInt 16 (clamp v 0 0xFFFF) }

/-- `set_otz(v)` (R345). -/
def Gte.setOtz (g : Gte) (v : Int) : Gte :=
  let g1 := g.flagIf 18 (clamps v 0 0xFFFF)
  { g1 with otz := BitVec.ofInt 16 (clamp v 0 0xFFFF) }

/-- `push_sxy(a, b)` (R346). -/
def Gte.pushSxy (g : Gte) (a b : Int) : Gte :=
  let g1 := (g.flagIf 14 (clamps a (-0x400) 0x3FF)).flagIf 13 (clamps b (-0x400) 0x3FF)
  { g1 with
    sxy0 := g.sxy1
    sxy1 := g.sxy2
    sxy2 := ⟨BitVec.ofInt 16 (clamp a (-0x400) 0x3FF), BitVec.ofInt 16 (clamp b (-0x400) 0x3FF)⟩ }

/-- `set_ir0(v)` (R347). -/
def Gte.setIr0 (g : Gte) (v : Int) : Gte :=
  let g1 := g.flagIf 12 (clamps v 0 0x1000)
  { g1 with ir0 := BitVec.ofInt 16 (clamp v 0 0x1000) }

/-! ## Interpolation and division (R348 to R351) -/

/-- `interpolate(in, l)` (R348): the first pass completes before the second starts. -/
def Gte.interpolate (g : Gte) (sf : Bool) (v : IVec) (l : Bool) : Gte :=
  let r1 := g.three fun i g => g.acc i (g.fc.ints.at i * 2 ^ 12 - v.at i)
  let g1 := r1.2.setMacIr3 sf r1.1 false
  let r2 := g1.three fun i g => g.acc i (g1.ir.at i * g1.ir0.toInt + v.at i)
  r2.2.setMacIr3 sf r2.1 l

/-- `UNR[i]` (R351), by the formula the rule gives beside the table. -/
def unr (i : Nat) : Nat := (0x40000 / (i + 0x100) + 1) / 2 - 0x101

/-- The quotient part of `divide` (R350), for `h < 2 z`. -/
def quotient (h z : Nat) : Nat :=
  let k := leadingZeros 16 z
  let n := h * 2 ^ k
  let d := z * 2 ^ k
  let u := unr ((d - 0x7FC0) / 2 ^ 7) + 0x101
  let d2 := (0x2000080 - d * u) / 2 ^ 8
  let d3 := (0x80 + d2 * u) / 2 ^ 8
  min 0x1FFFF ((n * d3 + 0x8000) / 2 ^ 16)

/-- `divide(h, z)` (R350). -/
def Gte.divide (g : Gte) (h z : BitVec 16) : Nat × Gte :=
  if h.toNat ≥ 2 * z.toNat then (0x1FFFF, g.flagIf 17 true) else (quotient h.toNat z.toNat, g)

/-! ## What the commands share (46_gte_commands.md) -/

/-- A command starts with FLAG = 0 (R330). -/
def Gte.start (g : Gte) : Gte := { g with flag := 0 }

/-- `rtp(V, last)` (46_gte_commands.md R381), its nine steps in order. -/
def Gte.rtp (g : Gte) (sf lm : Bool) (v : IVec) (last : Bool) : Gte :=
  let t := g.product g.rt g.tr.ints v
  let g2 := ((t.2.setMac sf 1 t.1.x).setMac sf 2 t.1.y).setMac sf 3 t.1.z
  let g3 := (g2.setIr 1 (g2.getMac 1) lm).setIr 2 (g2.getMac 2) lm
  let z := t.1.z >>> 12
  let g4 := (g3.flagIf 22 (clamps z (-0x8000) 0x7FFF)).putIr 3 (clamp (g3.getMac 3) (irMin lm) 0x7FFF)
  let g5 := g4.pushSz z
  let n := g5.divide g5.h g5.sz3
  let sx := n.1 * n.2.ir1.toInt + n.2.ofx.toInt
  let sy := n.1 * n.2.ir2.toInt + n.2.ofy.toInt
  let g7 := (n.2.setMac0 sx).setMac0 sy
  let g8 := g7.pushSxy (sx >>> 16) (sy >>> 16)
  let q := n.1 * g8.dqa.toInt + g8.dqb.toInt
  if last then (g8.setMac0 q).setIr0 (q >>> 12) else g8

/-- `col()`: the colour times IR, from the IR of this moment (46_gte_commands.md section 4). -/
def Gte.col (g : Gte) : IVec :=
  ⟨(rgbOf g.rgbc).x * g.ir1.toInt * 16, (rgbOf g.rgbc).y * g.ir2.toInt * 16,
    (rgbOf g.rgbc).z * g.ir3.toInt * 16⟩

/-- The three modes of step (3) of `nc` (46_gte_commands.md R393). -/
inductive ColourMode where
  | plain
  | colour
  | depth
  deriving DecidableEq, Repr

/-- Step (3) of `nc`. -/
def Gte.shade (g : Gte) (sf lm : Bool) : ColourMode → Gte
  | .plain => g
  | .colour => g.setMacIr3 sf g.col lm
  | .depth => g.interpolate sf g.col lm

/-- Steps (2), (3), (4) of `nc`: light colour, mode, push (46_gte_commands.md R393, R392, R389). -/
def Gte.lit (g : Gte) (sf lm : Bool) (mode : ColourMode) : Gte :=
  ((g.mulmat sf g.lcm g.bk.ints g.ir lm).shade sf lm mode).pushRgb

/-- `nc(V, mode)` (46_gte_commands.md R393). -/
def Gte.nc (g : Gte) (sf lm : Bool) (v : IVec) (mode : ColourMode) : Gte :=
  (g.mulmat sf g.llm .zero v lm).lit sf lm mode

end Sys2Proof.Machine
end

