-- ==== Sys2Proof/Machine/GteCommands.lean ====
section
/-!
DEFINITION. The 22 commands of coprocessor 2 (46_gte_commands.md), one meaning each. A command starts with
FLAG = 0, works on the 64 registers alone and never traps (R403).
-/

namespace Sys2Proof.Machine

/-- Run a command on the registers of coprocessor 2 (44_system_cop.md R294). -/
def gteRun (f : Gte → Gte) (s : State) : Out := .next (s.setGte (f s.gte.start))

/-! ## The commands as functions of the register file -/

/-- R382. -/
def Gte.rtpt (g : Gte) (sf lm : Bool) : Gte :=
  ((g.rtp sf lm g.v0.ints false).rtp sf lm g.v1.ints false).rtp sf lm g.v2.ints true

/-- R383. -/
def Gte.nclip (g : Gte) : Gte :=
  let x0 := g.sxy0.sx.toInt
  let y0 := g.sxy0.sy.toInt
  let x1 := g.sxy1.sx.toInt
  let y1 := g.sxy1.sy.toInt
  let x2 := g.sxy2.sx.toInt
  let y2 := g.sxy2.sy.toInt
  g.setMac0 (x0 * y1 + x1 * y2 + x2 * y0 - x0 * y2 - x1 * y0 - x2 * y1)

/-- R384. -/
def Gte.op (g : Gte) (sf lm : Bool) : Gte :=
  let d : IVec := ⟨g.rt.r1.x.toInt, g.rt.r2.y.toInt, g.rt.r3.z.toInt⟩
  let ir := g.ir
  let m := g.three fun i g => g.acc i (match i with
    | 1 => ir.z * d.y - ir.y * d.z
    | 2 => ir.x * d.z - ir.z * d.x
    | _ => ir.y * d.x - ir.x * d.y)
  m.2.setMacIr3 sf m.1 lm

/-- R398. -/
def Gte.avsz3 (g : Gte) : Gte :=
  let m := g.zsf3.toInt * (g.sz1.toNat + g.sz2.toNat + g.sz3.toNat : Nat)
  (g.setMac0 m).setOtz (m >>> 12)

/-- R399. -/
def Gte.avsz4 (g : Gte) : Gte :=
  let m := g.zsf4.toInt * (g.sz0.toNat + g.sz1.toNat + g.sz2.toNat + g.sz3.toNat : Nat)
  (g.setMac0 m).setOtz (m >>> 12)

/-- R395. -/
def Gte.sqr (g : Gte) (sf lm : Bool) : Gte :=
  g.setMacIr3 sf ⟨g.ir.x * g.ir.x, g.ir.y * g.ir.y, g.ir.z * g.ir.z⟩ lm

/-- The matrix of MVMVA, `none` for the reserved `mx` = 3 (R387). -/
def Gte.selMatrix (g : Gte) (mx : BitVec 2) : Option Mat :=
  match mx.toNat with
  | 0 => some g.rt
  | 1 => some g.llm
  | 2 => some g.lcm
  | _ => none

/-- The vector of MVMVA (R387). -/
def Gte.selVector (g : Gte) (v : BitVec 2) : IVec :=
  match v.toNat with
  | 0 => g.v0.ints
  | 1 => g.v1.ints
  | 2 => g.v2.ints
  | _ => g.ir

/-- The translation of MVMVA (R387). -/
def Gte.selTranslation (g : Gte) (cv : BitVec 2) : IVec :=
  match cv.toNat with
  | 0 => g.tr.ints
  | 1 => g.bk.ints
  | 2 => g.fc.ints
  | _ => .zero

/-- What the far-colour clamp takes: the value, or, where it has more than 32 bits (`sf` = 0), perhaps only its
low 32, which no rule settles (45_gte_state_arith.md R342; log 30). -/
def farClamped (v : Int) : Int :=
  if -(2 ^ 31) ≤ v ∧ v < 2 ^ 31 then v else if Config.farClampCuts then (BitVec.ofInt 32 v).toInt else v

/-- The faulty far-colour case of MVMVA, `cv` = 2 (R387). The vector is the one before the command
(log 26). -/
def Gte.mulmatFar (g : Gte) (sf : Bool) (m : Mat) (v : IVec) (l : Bool) : Gte :=
  let e := g.three fun i g => g.acc i (g.fc.ints.at i * 2 ^ 12 + (m.row i).x * v.x)
  let far (x : Int) : Int := farClamped (shift sf x)
  let g1 := ((e.2.setIr 1 (far e.1.x) false).setIr 2 (far e.1.y) false).setIr 3 (far e.1.z) false
  let r := g1.three fun i g =>
    let a := g.acc i ((m.row i).y * v.y)
    a.2.acc i (a.1 + (m.row i).z * v.z)
  r.2.setMacIr3 sf r.1 l

/-- R387, for a matrix that exists. -/
def Gte.mvmva (g : Gte) (a : GteArgs) (m : Mat) : Gte :=
  if a.cv = 2 then g.mulmatFar a.sf m (g.selVector a.v) a.lm
  else g.mulmat a.sf m (g.selTranslation a.cv) (g.selVector a.v) a.lm

/-- A colour in the 16-fraction form of DPCS and DPCT (R385, R397). -/
def rgb16 (c : Word) : IVec :=
  ⟨(rgbOf c).x * 2 ^ 16, (rgbOf c).y * 2 ^ 16, (rgbOf c).z * 2 ^ 16⟩

/-- R385; one pass of R397. -/
def Gte.cue (g : Gte) (sf lm : Bool) (c : Word) : Gte :=
  (g.interpolate sf (rgb16 c) lm).pushRgb

/-- R397: each pass reads the RGB0 the pass before it left. -/
def Gte.dpct (g : Gte) (sf lm : Bool) : Gte :=
  let g1 := g.cue sf lm g.rgb0
  let g2 := g1.cue sf lm g1.rgb0
  g2.cue sf lm g2.rgb0

/-- R386. -/
def Gte.intpl (g : Gte) (sf lm : Bool) : Gte :=
  (g.interpolate sf ⟨g.ir.x * 2 ^ 12, g.ir.y * 2 ^ 12, g.ir.z * 2 ^ 12⟩ lm).pushRgb

/-- R396. -/
def Gte.dcpl (g : Gte) (sf lm : Bool) : Gte := (g.interpolate sf g.col lm).pushRgb

/-- R400. -/
def Gte.gpf (g : Gte) (sf lm : Bool) : Gte :=
  let k := g.ir0.toInt
  (g.setMacIr3 sf ⟨g.ir.x * k, g.ir.y * k, g.ir.z * k⟩ lm).pushRgb

/-- R401. -/
def Gte.gpl (g : Gte) (sf lm : Bool) : Gte :=
  let up : Int := if sf then 2 ^ 12 else 1
  let m := g.three fun i g' => g'.acc i (g.mac.at i * up + g.ir.at i * g.ir0.toInt)
  (m.2.setMacIr3 sf m.1 lm).pushRgb

/-- Three vertices through `nc` (R394, R402, R390). -/
def Gte.nc3 (g : Gte) (sf lm : Bool) (mode : ColourMode) : Gte :=
  ((g.nc sf lm g.v0.ints mode).nc sf lm g.v1.ints mode).nc sf lm g.v2.ints mode

/-! ## The meanings -/

/-- RTPS (R381). -/
def execGteRtps (a : GteArgs) (s : State) : Out := gteRun (fun g => g.rtp a.sf a.lm g.v0.ints true) s
/-- NCLIP (R383). -/
def execGteNclip (_ : GteArgs) (s : State) : Out := gteRun Gte.nclip s
/-- OP (R384). -/
def execGteOp (a : GteArgs) (s : State) : Out := gteRun (·.op a.sf a.lm) s
/-- DPCS (R385). -/
def execGteDpcs (a : GteArgs) (s : State) : Out := gteRun (fun g => g.cue a.sf a.lm g.rgbc) s
/-- INTPL (R386). -/
def execGteIntpl (a : GteArgs) (s : State) : Out := gteRun (·.intpl a.sf a.lm) s
/-- MVMVA (R387): the reserved matrix halts the machine. -/
def execGteMvmva (a : GteArgs) (s : State) : Out :=
  match s.gte.selMatrix a.mx with
  | some m => gteRun (·.mvmva a m) s
  | none => .fault (.unknownOpcode .coprocessor s.pc (wordGte a 0x12#6))
/-- NCDS (R388). -/
def execGteNcds (a : GteArgs) (s : State) : Out := gteRun (fun g => g.nc a.sf a.lm g.v0.ints .depth) s
/-- CDP (R389). -/
def execGteCdp (a : GteArgs) (s : State) : Out := gteRun (·.lit a.sf a.lm .depth) s
/-- NCDT (R390). -/
def execGteNcdt (a : GteArgs) (s : State) : Out := gteRun (·.nc3 a.sf a.lm .depth) s
/-- NCCS (R391). -/
def execGteNccs (a : GteArgs) (s : State) : Out := gteRun (fun g => g.nc a.sf a.lm g.v0.ints .colour) s
/-- CC (R392). -/
def execGteCc (a : GteArgs) (s : State) : Out := gteRun (·.lit a.sf a.lm .colour) s
/-- NCS (R393). -/
def execGteNcs (a : GteArgs) (s : State) : Out := gteRun (fun g => g.nc a.sf a.lm g.v0.ints .plain) s
/-- NCT (R394). -/
def execGteNct (a : GteArgs) (s : State) : Out := gteRun (·.nc3 a.sf a.lm .plain) s
/-- SQR (R395). -/
def execGteSqr (a : GteArgs) (s : State) : Out := gteRun (·.sqr a.sf a.lm) s
/-- DCPL (R396). -/
def execGteDcpl (a : GteArgs) (s : State) : Out := gteRun (·.dcpl a.sf a.lm) s
/-- DPCT (R397). -/
def execGteDpct (a : GteArgs) (s : State) : Out := gteRun (·.dpct a.sf a.lm) s
/-- AVSZ3 (R398). -/
def execGteAvsz3 (_ : GteArgs) (s : State) : Out := gteRun Gte.avsz3 s
/-- AVSZ4 (R399). -/
def execGteAvsz4 (_ : GteArgs) (s : State) : Out := gteRun Gte.avsz4 s
/-- RTPT (R382). -/
def execGteRtpt (a : GteArgs) (s : State) : Out := gteRun (·.rtpt a.sf a.lm) s
/-- GPF (R400). -/
def execGteGpf (a : GteArgs) (s : State) : Out := gteRun (·.gpf a.sf a.lm) s
/-- GPL (R401). -/
def execGteGpl (a : GteArgs) (s : State) : Out := gteRun (·.gpl a.sf a.lm) s
/-- NCCT (R402). -/
def execGteNcct (a : GteArgs) (s : State) : Out := gteRun (·.nc3 a.sf a.lm .colour) s

end Sys2Proof.Machine
end

