-- ==== Sys2Proof/Machine/Disc.lean ====
section
/-!
DEFINITION. The optical-disc controller (48_cdrom_commands.md): ports, the response queue, delivery, and the
meaning of each command byte. A command's meaning is its write to the command port (R514); what it then does
is done when its events are delivered (log 17).
-/

namespace Sys2Proof.Machine

/-! ## Addresses (R516) -/

/-- `bcd(b)`. -/
def bcd (b : Byte) : Nat := (b.extractLsb' 4 4).toNat * 10 + (b.extractLsb' 0 4).toNat

/-- Both nibbles are at most 9. -/
def validBcd (b : Byte) : Bool := (b.extractLsb' 4 4).toNat ≤ 9 && (b.extractLsb' 0 4).toNat ≤ 9

/-- `lba(mm, ss, ff)`. -/
def lba (mm ss ff : Byte) : Int := (((bcd mm * 60 + bcd ss) * 75 + bcd ff : Nat) : Int) - 150

/-- `tobcd(n)`; a number without a two-digit form gives a free byte (log 19). -/
def toBcd (n : Int) : Byte :=
  if 0 ≤ n ∧ n ≤ 99 then BitVec.ofNat 8 (n.toNat / 10 * 16 + n.toNat % 10) else Config.bcdOutOfRange n

/-- `msf(n)`: minute, second, frame; before minute 0 three free bytes (log 19). -/
def msf (n : Int) : Byte × Byte × Byte :=
  let a := n + 150
  if a < 0 then Config.msfBefore n else (toBcd (a / 4500), toBcd (a / 75 % 60), toBcd (a % 75))

/-! ## The disc and its sectors (R517, R519) -/

/-- Every sector of the disc has SECTOR_RAW bytes (R519). -/
def Cdc.wellSized (disc : Option (List (List Byte))) : Bool :=
  (disc.getD []).all (·.length == Config.sectorRaw)

/-- `disc(n)`. -/
def Cdc.sectorAt (c : Cdc) (n : Int) : Option (List Byte) :=
  match c.disc with
  | some d => if n < 0 then none else d[n.toNat]?
  | none => none

/-- `N`, the length of the disc. -/
def Cdc.discLength (c : Cdc) : Nat := (c.disc.map List.length).getD 0

/-- `user(s)`. -/
def Cdc.user (c : Cdc) (s : List Byte) : List Byte :=
  if c.cmode.getLsbD 5 then (s.drop 12).take 0x924 else (s.drop 24).take 0x800

/-! ## Status (R503, R511) -/

/-- The status byte of responses (R511). -/
def Cdc.stat (c : Cdc) : Byte :=
  (if c.motor then 0x02#8 else 0) ||| (if c.disc.isNone then 0x10#8 else 0) |||
    (match c.dmode with
      | .idle => 0
      | .reading => 0x20#8
      | .seeking => 0x40#8
      | .playing => 0x80#8)

/-- A first response: `Ack` or `Err`. -/
def EventKind.isFirst : EventKind → Bool
  | .ack _ _ | .err _ => true
  | _ => false

/-- `Sector`, `PlayTick` and `Done`, which a new motion command takes off the queue (R514). -/
def EventKind.isMotion : EventKind → Bool
  | .sector | .playTick | .done _ => true
  | _ => false

/-- The status register (R503). -/
def Cdc.readStatus (c : Cdc) : Byte :=
  c.ix.setWidth 8 ||| (if c.param.isEmpty then 0x08#8 else 0) |||
    (if c.param.length < 16 then 0x10#8 else 0) ||| (if c.resp.isEmpty then 0 else 0x20#8) |||
    (if c.data.isEmpty then 0 else 0x40#8) |||
    (if c.queue.any (·.kind.isFirst) then 0x80#8 else 0)

/-! ## Command writes (R514, R520, R545 to R547) -/

/-- The accepted parameter counts (R520). -/
def DiscCmd.counts : DiscCmd → List Nat
  | .setloc => [3]
  | .play => [0, 1]
  | .setfilter => [2]
  | .setmode | .getTD | .test => [1]
  | _ => [0]

/-- The command needs a disc (R520). -/
def DiscCmd.needsDisc : DiscCmd → Bool
  | .play | .readN | .getlocL | .getlocP | .getTN | .getTD | .seekL | .seekP | .readS | .readTOC => true
  | _ => false

/-- The command clears pending motion events (R514). -/
def DiscCmd.flushes : DiscCmd → Bool
  | .play | .readN | .readS | .stop | .pause | .init | .seekL | .seekP => true
  | _ => false

/-- The error a command meets at its write on account of its parameters or of `hdr` (R522, R534, R537,
R540). -/
def Cdc.writeError (c : Cdc) (cmd : DiscCmd) (p : List Byte) : Option Byte :=
  match cmd with
  | .setloc =>
    if p.all validBcd && (p.getD 1 0).toNat ≤ 0x59 && (p.getD 2 0).toNat ≤ 0x74 then none else some 0x10
  | .getlocL => if c.hdr.isNone then some 0x80 else none
  | .getTD => if (p.getD 0 0).toNat ≤ 1 then none else some 0x10
  | .test => if p.getD 0 0 = 0x20 then none else some 0x10
  | _ => none

/-- Append an event. -/
def Cdc.append (c : Cdc) (delay : Nat) (k : EventKind) : Cdc := { c with queue := c.queue ++ [⟨delay, k⟩] }

/-- CPI (70_reset_and_hazards.md R681). -/
def cpi (p : Params) : Nat := p.cpiPred + 1
/-- DISC_DELAY.ack (R513). -/
def ackDelay (p : Params) : Nat := p.ackPred + 1
/-- DISC_DELAY.done. -/
def doneDelay (p : Params) : Nat := p.donePred + 1
/-- DISC_DELAY.seek. -/
def seekDelay (p : Params) : Nat := p.seekPred + 1
/-- DISC_DELAY.read, halved, rounding up, at double speed (R513). -/
def Cdc.readDelay (c : Cdc) (p : Params) : Nat :=
  if c.cmode.getLsbD 7 then (p.readPred + 2) / 2 else p.readPred + 1

/-- Append a first response (R514, R545 to R547). -/
def Cdc.appendFirst (p : Params) (c : Cdc) (k : EventKind) : Cdc := c.append (ackDelay p) k

/-- The controller after a write of a known command byte (R514). A motion command takes off the queue the motion events
that are there at its write: one that an earlier command's acknowledge, still queued, brings later is delivered, also where
R549 (e), which the spec derives from R512 and R513, speaks against it (log 32). -/
def Cdc.command (p : Params) (cmd : DiscCmd) (c0 : Cdc) : Cdc :=
  let c := { c0 with param := [] }
  if !cmd.counts.contains c0.param.length then c.appendFirst p (.err 0x20)
  else if cmd.needsDisc && c.disc.isNone then c.appendFirst p (.err 0x80)
  else
    match c.writeError cmd c0.param with
    | some e => c.appendFirst p (.err e)
    | none =>
      let c1 := if cmd.flushes then { c with queue := c.queue.filter (!·.kind.isMotion) } else c
      c1.appendFirst p (.ack cmd c0.param)

/-- Write a known command byte. -/
def discCommand (cmd : DiscCmd) (s : State) : Out := .next (s.setCdc (s.cdc.command s.params cmd))

/-! ## Delivery (R513, R515, R521 to R543) -/

/-- `if target != none then pos <- target; target <- none`. -/
def Cdc.useTarget (c : Cdc) : Cdc :=
  match c.target with
  | some t => { c with pos := t, target := none }
  | none => c

/-- Reading starts (R524, R542). -/
def Cdc.startRead (p : Params) (c : Cdc) : Cdc :=
  { c.useTarget with dmode := .reading }.append
    ((if c.target.isSome then seekDelay p else 0) + c.readDelay p) .sector

/-- The first response of a command: the bytes, and the controller after the state change (R521 to
R543). -/
def Cdc.deliverAck (p : Params) (c : Cdc) (cmd : DiscCmd) (ps : List Byte) : List Byte × Cdc :=
  match cmd with
  | .getstat | .mute | .demute => ([c.stat], c)
  | .setloc => ([c.stat], { c with target := some (lba (ps.getD 0 0) (ps.getD 1 0) (ps.getD 2 0)) })
  | .play => ([c.stat], { c.useTarget with dmode := .playing }.append (c.readDelay p) .playTick)
  | .readN | .readS => ([c.stat], c.startRead p)
  | .motorOn | .getID | .readTOC => ([c.stat], c.append (doneDelay p) (.done cmd))
  | .stop | .pause => ([c.stat], { c with dmode := .idle }.append (doneDelay p) (.done cmd))
  | .init =>
    ([c.stat],
      { c with dmode := .idle, motor := true, cmode := 0x20, target := none }.append (doneDelay p)
        (.done cmd))
  | .setfilter => ([c.stat], { c with file := ps.getD 0 0, chan := ps.getD 1 0 })
  | .setmode => ([c.stat], { c with cmode := ps.getD 0 0 })
  | .getparam => ([c.stat, c.cmode, 0, c.file, c.chan], c)
  | .getlocL => (c.hdr.getD [], c)
  | .getlocP =>
    let r := msf (c.pos - 150)
    let a := msf c.pos
    ([0x01, 0x01, r.1, r.2.1, r.2.2, a.1, a.2.1, a.2.2], c)
  | .getTN => ([c.stat, 0x01, 0x01], c)
  | .getTD =>
    if ps.getD 0 0 = 0 then
      let e := msf c.discLength
      ([c.stat, e.1, e.2.1], c)
    else ([c.stat, 0x00, 0x02], c)
  | .seekL | .seekP => ([c.stat], { c with dmode := .seeking }.append (seekDelay p) (.done cmd))
  | .test => ([0x94, 0x09, 0x19, 0xC0], c)

/-- The second response of a command: the bytes, the interrupt kind, the controller after it (R525 to R528,
R538, R539, R541, R543). -/
def Cdc.deliverDone (p : Params) (c : Cdc) (cmd : DiscCmd) : List Byte × BitVec 3 × Cdc :=
  match cmd with
  | .motorOn =>
    let c1 := { c with motor := true }
    ([c1.stat], 2, c1)
  | .stop =>
    let c1 := { c with motor := false, pos := 0 }
    ([c1.stat], 2, c1)
  | .seekL | .seekP =>
    let c1 := { c.useTarget with dmode := .idle }
    ([c1.stat], 2, c1)
  | .getID =>
    if c.disc.isSome then
      ([0x02, 0x00, 0x20, 0x00, p.region.1, p.region.2.1, p.region.2.2.1, p.region.2.2.2], 2, c)
    else ([0x08, 0x40, 0, 0, 0, 0, 0, 0], 5, c)
  | _ => ([c.stat], 2, c)

/-- A response: its bytes and its interrupt kind. -/
def Cdc.respond (c : Cdc) (bytes : List Byte) (kind : BitVec 3) : Cdc :=
  { c with resp := bytes, iflag := kind }

/-- The pending kind meets an enable bit (R513). -/
def Cdc.enabled (c : Cdc) : Bool := (c.iflag.setWidth 5 &&& c.ien) != 0#5

/-- The controller after an event is delivered, and whether a response was (R513, R515). -/
def Cdc.deliver (p : Params) (c : Cdc) (k : EventKind) : Cdc × Bool :=
  match k with
  | .ack cmd ps =>
    let r := c.deliverAck p cmd ps
    (r.2.respond r.1 3, true)
  | .err code => (c.respond [c.stat ||| 1, code] 5, true)
  | .done cmd =>
    let r := c.deliverDone p cmd
    (r.2.2.respond r.1 r.2.1, true)
  | .sector =>
    if c.dmode = .reading then
      match c.sectorAt c.pos with
      | none => ({ c with dmode := .idle }.respond [c.stat ||| 0x05, 0x04] 5, true)
      | some b =>
        ((({ c with sector := some b, hdr := some ((b.drop 12).take 8), pos := c.pos + 1 }).respond
          [c.stat] 1).append (c.readDelay p) .sector, true)
    else (c, false)
  | .playTick =>
    if c.dmode = .playing then
      match c.sectorAt c.pos with
      | none => ({ c with dmode := .idle }, false)
      | some _ => ({ c with pos := c.pos + 1 }.append (c.readDelay p) .playTick, false)
    else (c, false)

/-- Only the head of the queue counts down (R512). -/
def Cdc.countDown (n : Nat) (c : Cdc) : Cdc :=
  match c.queue with
  | [] => c
  | e :: rest => { c with queue := { e with delay := e.delay - n } :: rest }

/-- `disc_advance(c)` (R512): the head counts down, and at most one event is delivered. Where DISC_DELAY.ack is at most CPI
that can be the response to a command of the same invocation, although 70_reset_and_hazards.md R696 (c) speaks against it:
R512 is followed, as C7 of 90_conflicts.md does for all delays (log 29). -/
def discAdvance (n : Nat) (s : State) : State :=
  match s.cdc.queue with
  | [] => s
  | e :: rest =>
    if e.delay - n = 0 ∧ (s.cdc.iflag = 0 ∨ e.kind = .playTick) then
      let r := { s.cdc with queue := rest }.deliver s.params e.kind
      (s.raiseIrq 2 (r.2 && r.1.enabled)).setCdc r.1
    else s.setCdc (s.cdc.countDown n)

/-! ## Ports (R501 to R510) -/

/-- The first byte of a FIFO, or 0, and what is left (R504, R505). -/
def fifoPop (l : List Byte) : Byte × List Byte := (l.headD 0, l.tail)

/-- Read a data-FIFO byte (R505). -/
def Cdc.popData (c : Cdc) : Byte × Cdc := ((fifoPop c.data).1, { c with data := (fifoPop c.data).2 })

/-- A word as DMA channel 3 reads it: four data-FIFO bytes, the first in bits 7:0 (R518). -/
def Cdc.popWord (c : Cdc) : Word × Cdc :=
  let b0 := c.popData
  let b1 := b0.2.popData
  let b2 := b1.2.popData
  let b3 := b2.2.popData
  (b3.1 ++ b2.1 ++ b1.1 ++ b0.1, b3.2)

/-- A read of port `off` (R501). -/
def Cdc.readPort (c : Cdc) (off : Nat) : Byte × Cdc :=
  match off with
  | 0 => (c.readStatus, c)
  | 1 => ((fifoPop c.resp).1, { c with resp := (fifoPop c.resp).2 })
  | 2 => c.popData
  | _ => (if c.ix.getLsbD 0 then 0xE0#8 ||| c.iflag.setWidth 8 else 0xE0#8 ||| c.ien.setWidth 8, c)

/-- The request write (R507). -/
def Cdc.request (c : Cdc) (v : Byte) : Cdc :=
  if v.getLsbD 7 then
    match c.sector with
    | some b => if c.data.isEmpty then { c with data := c.user b } else c
    | none => c
  else { c with data := [] }

/-- The interrupt acknowledge write (R509). -/
def Cdc.acknowledge (c : Cdc) (v : Byte) : Cdc :=
  { c with
    iflag := c.iflag &&& ~~~v.extractLsb' 0 3
    param := if v.getLsbD 6 then [] else c.param }

/-- A write to port `off` other than a command (R501, R506 to R510). -/
def Cdc.writePort (c : Cdc) (off : Nat) (v : Byte) : Cdc :=
  match off, c.ix.toNat with
  | 0, _ => { c with ix := v.extractLsb' 0 2 }
  | 1, 1 => { c with latches := { c.latches with p1i1 := v } }
  | 1, 2 => { c with latches := { c.latches with p1i2 := v } }
  | 1, 3 => { c with latches := { c.latches with p1i3 := v } }
  | 2, 0 => if c.param.length < 16 then { c with param := c.param ++ [v] } else c
  | 2, 1 => { c with ien := v.extractLsb' 0 5 }
  | 2, 2 => { c with latches := { c.latches with p2i2 := v } }
  | 2, 3 => { c with latches := { c.latches with p2i3 := v } }
  | 3, 0 => c.request v
  | 3, 1 => c.acknowledge v
  | 3, 2 => { c with latches := { c.latches with p3i2 := v } }
  | 3, 3 => { c with latches := { c.latches with p3i3 := v } }
  | _, _ => c

/-! ## The meanings of the command bytes (R521 to R543) -/

/-- Getstat (R521). -/
def execCdcGetstat (s : State) : Out := discCommand .getstat s
/-- Setloc (R522). -/
def execCdcSetloc (s : State) : Out := discCommand .setloc s
/-- Play (R523). -/
def execCdcPlay (s : State) : Out := discCommand .play s
/-- ReadN (R524). -/
def execCdcReadN (s : State) : Out := discCommand .readN s
/-- MotorOn (R525). -/
def execCdcMotorOn (s : State) : Out := discCommand .motorOn s
/-- Stop (R526). -/
def execCdcStop (s : State) : Out := discCommand .stop s
/-- Pause (R527). -/
def execCdcPause (s : State) : Out := discCommand .pause s
/-- Init (R528). -/
def execCdcInit (s : State) : Out := discCommand .init s
/-- Mute (R529). -/
def execCdcMute (s : State) : Out := discCommand .mute s
/-- Demute (R530). -/
def execCdcDemute (s : State) : Out := discCommand .demute s
/-- Setfilter (R531). -/
def execCdcSetfilter (s : State) : Out := discCommand .setfilter s
/-- Setmode (R532). -/
def execCdcSetmode (s : State) : Out := discCommand .setmode s
/-- Getparam (R533). -/
def execCdcGetparam (s : State) : Out := discCommand .getparam s
/-- GetlocL (R534). -/
def execCdcGetlocL (s : State) : Out := discCommand .getlocL s
/-- GetlocP (R535). -/
def execCdcGetlocP (s : State) : Out := discCommand .getlocP s
/-- GetTN (R536). -/
def execCdcGetTN (s : State) : Out := discCommand .getTN s
/-- GetTD (R537). -/
def execCdcGetTD (s : State) : Out := discCommand .getTD s
/-- SeekL (R538). -/
def execCdcSeekL (s : State) : Out := discCommand .seekL s
/-- SeekP (R539). -/
def execCdcSeekP (s : State) : Out := discCommand .seekP s
/-- Test (R540). -/
def execCdcTest (s : State) : Out := discCommand .test s
/-- GetID (R541). -/
def execCdcGetID (s : State) : Out := discCommand .getID s
/-- ReadS (R542). -/
def execCdcReadS (s : State) : Out := discCommand .readS s
/-- ReadTOC (R543). -/
def execCdcReadTOC (s : State) : Out := discCommand .readTOC s

/-! ## The command port -/

/-- A write to the command port (R514, R545). -/
def discCommandByte (b : Byte) (s : State) : Out :=
  match decodeDisc b with
  | .ok .cdcGetstat => execCdcGetstat s
  | .ok .cdcSetloc => execCdcSetloc s
  | .ok .cdcPlay => execCdcPlay s
  | .ok .cdcReadN => execCdcReadN s
  | .ok .cdcMotorOn => execCdcMotorOn s
  | .ok .cdcStop => execCdcStop s
  | .ok .cdcPause => execCdcPause s
  | .ok .cdcInit => execCdcInit s
  | .ok .cdcMute => execCdcMute s
  | .ok .cdcDemute => execCdcDemute s
  | .ok .cdcSetfilter => execCdcSetfilter s
  | .ok .cdcSetmode => execCdcSetmode s
  | .ok .cdcGetparam => execCdcGetparam s
  | .ok .cdcGetlocL => execCdcGetlocL s
  | .ok .cdcGetlocP => execCdcGetlocP s
  | .ok .cdcGetTN => execCdcGetTN s
  | .ok .cdcGetTD => execCdcGetTD s
  | .ok .cdcSeekL => execCdcSeekL s
  | .ok .cdcSeekP => execCdcSeekP s
  | .ok .cdcTest => execCdcTest s
  | .ok .cdcGetID => execCdcGetID s
  | .ok .cdcReadS => execCdcReadS s
  | .ok .cdcReadTOC => execCdcReadTOC s
  | _ => .next (s.setCdc ({ s.cdc with param := [] }.appendFirst s.params (.err 0x40)))

/-- A write to a disc port (R501). -/
def discWrite (off : Nat) (v : Byte) (s : State) : Out :=
  if off = 1 ∧ s.cdc.ix = 0 then discCommandByte v s else .next (s.setCdc (s.cdc.writePort off v))

/-- A read of a disc port (R501). -/
def discRead (off : Nat) (s : State) : Word × State :=
  ((s.cdc.readPort off).1.setWidth 32, s.setCdc (s.cdc.readPort off).2)

end Sys2Proof.Machine
end

