-- ==== Sys2Proof/Machine/Gpu.lean ====
section
/-!
DEFINITION. VRAM and rasterisation (47_gpu_commands.md sections 1, 3, 4): pixels, transfers, the draw log,
triangle coverage, the pixel pipeline, interpolation, lines and rectangles.
-/

namespace Sys2Proof.Machine

/-- `f 0`, then `f 1`, ... then `f (n - 1)` applied to a value. -/
def countUp {α : Type} (n : Nat) (f : Nat → α → α) (a : α) : α :=
  match n with
  | 0 => a
  | k + 1 => f k (countUp k f a)

/-! ## VRAM (R430, R438) -/

/-- Where a pixel is listed: coordinates are first reduced modulo 1024 and 512 (R430). -/
def vramIndex (x y : Nat) : Nat := (y % 512) * 1024 + x % 1024

/-- `VRAM[x, y]`; a free value where nothing has been written (log 4). -/
def Gpu.pixel (g : Gpu) (x y : Nat) : Half :=
  (Cells.get? g.vram (vramIndex x y)).getD (Config.resetPixel (vramIndex x y))

/-- `VRAM[x, y] <- p`. -/
def Gpu.setPixel (g : Gpu) (x y : Nat) (p : Half) : Gpu :=
  { g with vram := Cells.put g.vram (vramIndex x y) p }

/-- `stat[11]`, MD. -/
def Gpu.forceMask (g : Gpu) : Bool := g.stat.getLsbD 11
/-- `stat[12]`, ME. -/
def Gpu.checkMask (g : Gpu) : Bool := g.stat.getLsbD 12
/-- A halfword with only bit 15 as given. -/
def maskBit (on : Bool) : Half := if on then 0x8000#16 else 0

/-- `put(x, y, p)`: a pixel of a transfer, under both mask bits (R462, R449). -/
def Gpu.put (g : Gpu) (x y : Nat) (p : Half) : Gpu :=
  if g.checkMask && (g.pixel x y).getLsbD 15 then g
  else g.setPixel x y (p ||| maskBit g.forceMask)

/-- Write the stored bits of GPUSTAT chosen by a mask. -/
def Gpu.setStat (g : Gpu) (mask v : Word) : Gpu :=
  { g with stat := (g.stat &&& ~~~mask) ||| (v &&& mask) }

/-! ## Fields of command words -/

/-- Bits `lo + len - 1 .. lo` of a word as a number. -/
def bitsAt (w : Word) (lo len : Nat) : Nat := (w.extractLsb' lo len).toNat

/-- `to15` of a 24-bit colour (R438). -/
def to15 (r g b : Nat) : Half :=
  BitVec.ofNat 16 (r / 8) ||| (BitVec.ofNat 16 (g / 8) <<< 5) ||| (BitVec.ofNat 16 (b / 8) <<< 10)

/-- The red, green and blue of a command colour (R438). -/
def red (w : Word) : Nat := bitsAt w 0 8
def green (w : Word) : Nat := bitsAt w 8 8
def blue (w : Word) : Nat := bitsAt w 16 8

/-- `size(word)` (R461). -/
def sizeOf (w : Word) : Nat × Nat :=
  ((bitsAt w 0 10 + 1023) % 1024 + 1, (bitsAt w 16 9 + 511) % 512 + 1)

/-- The corner of a transfer, a copy or a fill: `x` = bits 9:0, `y` = bits 24:16. -/
def cornerOf (w : Word) : Nat × Nat := (bitsAt w 0 10, bitsAt w 16 9)

/-! ## The draw log (R494) -/

/-- Append an entry for the words in `buf`. -/
def Gpu.logRegion (g : Gpu) (r : Rect) : Gpu := { g with log := g.log ++ [⟨g.buf, r⟩] }

/-! ## Transfers between the processor and VRAM (R460 to R466) -/

/-- The rectangle, cursor and word count of R460 and R464, from the corner and size words. -/
def Gpu.openTransfer (g : Gpu) (mode : GpuMode) (corner size : Word) : Gpu :=
  let c := cornerOf corner
  let z := sizeOf size
  { g with
    mode := mode
    rect := ⟨c.1, c.2, z.1, z.2⟩
    cx := 0
    cy := 0
    rem := (z.1 * z.2 + 1) / 2 }

/-- The cursor advances, to the next row at the rectangle's own left edge (R462). -/
def Gpu.advance (g : Gpu) : Gpu :=
  if g.cx + 1 = g.rect.w then { g with cx := 0, cy := g.cy + 1 } else { g with cx := g.cx + 1 }

/-- One of the two pixels of a data word, if pixels remain (R462). -/
def Gpu.takePixel (g : Gpu) (p : Half) : Gpu :=
  if g.cy < g.rect.h then (g.put (g.rect.x + g.cx) (g.rect.y + g.cy) p).advance else g

/-- The word has been moved: `rem` falls, and a transfer with none left ends. -/
def Gpu.countWord (g : Gpu) : Gpu :=
  if g.rem - 1 = 0 then { g with rem := 0, mode := .idle } else { g with rem := g.rem - 1 }

/-- A GP0 write in ToVRAM (R462). -/
def Gpu.receive (g : Gpu) (w : Word) : Gpu :=
  let g1 := ((g.takePixel (w.extractLsb' 0 16)).takePixel (w.extractLsb' 16 16)).countWord
  if g1.mode = .idle then g1.logRegion g1.rect else g1

/-- `get()` of R466. -/
def Gpu.getPixel (g : Gpu) : Half × Gpu :=
  if g.cy < g.rect.h then (g.pixel (g.rect.x + g.cx) (g.rect.y + g.cy), g.advance) else (0, g)

/-- A GPUREAD read in FromVRAM (R466). -/
def Gpu.send (g : Gpu) : Word × Gpu :=
  let lo := g.getPixel
  let hi := lo.2.getPixel
  let w : Word := hi.1 ++ lo.1
  (w, { hi.2.countWord with readlatch := w })

/-! ## Fill and copy (R444, R449) -/

/-- Fill a rectangle, whatever the drawing area and the mask bits (R444). -/
def Gpu.fill (g : Gpu) (x0 y0 w h : Nat) (p : Half) : Gpu :=
  countUp h (fun dy g => countUp w (fun dx g => g.setPixel (x0 + dx) (y0 + dy) p) g) g

/-- Copy a rectangle pixel by pixel, rows outer (R449). -/
def Gpu.copy (g : Gpu) (sx sy tx ty w h : Nat) : Gpu :=
  countUp h (fun dy g =>
    countUp w (fun dx g => g.put (tx + dx) (ty + dy) (g.pixel (sx + dx) (sy + dy))) g) g

/-! ## Vertices and texture words (R467, R479) -/

/-- A vertex with its colour and texture coordinates. -/
structure Vertex where
  x : Int
  y : Int
  r : Nat
  g : Nat
  b : Nat
  u : Nat
  v : Nat
  deriving DecidableEq, Repr

/-- Screen `X` of a vertex word (R467). -/
def Gpu.screenX (g : Gpu) (w : Word) : Int :=
  (w.extractLsb' 0 11 + g.offset.extractLsb' 0 11).toInt

/-- Screen `Y` of a vertex word (R467). -/
def Gpu.screenY (g : Gpu) (w : Word) : Int :=
  (w.extractLsb' 16 11 + g.offset.extractLsb' 11 11).toInt

/-- The vertex of a colour word, a vertex word and a texcoord word. -/
def Gpu.vertex (g : Gpu) (colour pos tex : Word) : Vertex where
  x := g.screenX pos
  y := g.screenY pos
  r := red colour
  g := green colour
  b := blue colour
  u := bitsAt tex 0 8
  v := bitsAt tex 8 8

/-- CLUT base x of the first texcoord word (R479). -/
def clutX (tex : Word) : Nat := bitsAt tex 16 6 * 16
/-- CLUT base y of the first texcoord word (R479). -/
def clutY (tex : Word) : Nat := bitsAt tex 22 9

/-! ## Texels (R470 to R472) -/

/-- One coordinate through the texture window (R471): mask and offset fields. -/
def windowed (c m f : Nat) : Nat := (c &&& (255 - m * 8 % 256)) ||| ((f &&& m) * 8 % 256)

/-- `u` through the window. -/
def Gpu.windowU (g : Gpu) (u : Nat) : Nat :=
  windowed (u % 256) (g.texwin.extractLsb' 0 5).toNat (g.texwin.extractLsb' 10 5).toNat

/-- `v` through the window. -/
def Gpu.windowV (g : Gpu) (v : Nat) : Nat :=
  windowed (v % 256) (g.texwin.extractLsb' 5 5).toNat (g.texwin.extractLsb' 15 5).toNat

/-- `texel(u, v)` with CLUT base `(cx, cy)` (R470, R471). -/
def Gpu.texel (g : Gpu) (cx cy u0 v0 : Nat) : Half :=
  let u := g.windowU u0
  let v := g.windowV v0
  let px := bitsAt g.stat 0 4 * 64
  let py := bitsAt g.stat 4 1 * 256
  match bitsAt g.stat 7 2 with
  | 0 => g.pixel (cx + ((g.pixel (px + u / 4) (py + v) >>> (4 * (u % 4))) &&& 0xF#16).toNat) cy
  | 1 => g.pixel (cx + ((g.pixel (px + u / 2) (py + v) >>> (8 * (u % 2))) &&& 0xFF#16).toNat) cy
  | _ => g.pixel (px + u) (py + v)

/-- Modulation of one channel (R472). -/
def modulate (t5 c8 : Nat) : Nat := min 255 (t5 * c8 / 16)

/-! ## Blending and dither (R473, R475) -/

/-- Semi-transparency of one 5-bit channel: background, new component (R473). -/
def blend (abr b f : Nat) : Nat :=
  match abr with
  | 0 => (b + f) / 2
  | 1 => min 31 (b + f)
  | 2 => b - f
  | _ => min 31 (b + f / 4)

/-- `DM[y][x]` (R475). -/
def ditherMatrix (y x : Nat) : Int :=
  match y, x with
  | 0, 0 => -4 | 0, 1 => 0 | 0, 2 => -3 | 0, _ => 1
  | 1, 0 => 2 | 1, 1 => -2 | 1, 2 => 3 | 1, _ => -1
  | 2, 0 => -3 | 2, 1 => 1 | 2, 2 => -4 | 2, _ => 0
  | _, 0 => 3 | _, 1 => -1 | _, 2 => 2 | _, _ => -2

/-- One 8-bit channel after dither (R475). -/
def dithered (x y c : Nat) : Nat :=
  (max 0 (min 255 ((c : Int) + ditherMatrix (y % 4) (x % 4)))).toNat

/-! ## The pixel pipeline (R469) -/

/-- What is the same for every pixel of a primitive: its semi-transparency bit, whether dither applies, and
for a textured one the raw bit and the CLUT base. -/
structure Paint where
  semi : Bool
  dither : Bool
  textured : Bool
  raw : Bool
  clutX : Nat
  clutY : Nat
  deriving DecidableEq, Repr

/-- Inside the drawing area, inclusive (R469 (1)). -/
def Gpu.inArea (g : Gpu) (x y : Int) : Bool :=
  ((g.areaTl.extractLsb' 0 10).toNat : Int) ≤ x && x ≤ ((g.areaBr.extractLsb' 0 10).toNat : Int) &&
    ((g.areaTl.extractLsb' 10 9).toNat : Int) ≤ y && y ≤ ((g.areaBr.extractLsb' 10 9).toNat : Int)

/-- Steps (3) to (7) of R469 for an 8-bit colour, its semi-transparency and its mask bit. -/
def Gpu.plot (g : Gpu) (p : Paint) (x y r gr b : Nat) (semi m : Bool) : Gpu :=
  let r5 := (if p.dither then dithered x y r else r) / 8
  let g5 := (if p.dither then dithered x y gr else gr) / 8
  let b5 := (if p.dither then dithered x y b else b) / 8
  let bg := g.pixel x y
  if g.checkMask && bg.getLsbD 15 then g
  else
    let abr := bitsAt g.stat 5 2
    let mix (lo f : Nat) : Nat := if semi then blend abr (bg.extractLsb' lo 5).toNat f else f
    g.setPixel x y
      (BitVec.ofNat 16 (mix 0 r5) ||| (BitVec.ofNat 16 (mix 5 g5) <<< 5) |||
        (BitVec.ofNat 16 (mix 10 b5) <<< 10) ||| maskBit (m || g.forceMask))

/-- The pipeline for a covered pixel with its colour and texture coordinates (R469). -/
def Gpu.shadePixel (g : Gpu) (p : Paint) (x y : Int) (r gr b u v : Nat) : Gpu :=
  if g.inArea x y then
    if p.textured then
      let t := g.texel p.clutX p.clutY u v
      if t = 0 then g
      else
        let t5 (lo : Nat) : Nat := (t.extractLsb' lo 5).toNat
        let m := t.getLsbD 15
        if p.raw then g.plot p x.toNat y.toNat (t5 0 * 8) (t5 5 * 8) (t5 10 * 8) (p.semi && m) m
        else
          g.plot p x.toNat y.toNat (modulate (t5 0) r) (modulate (t5 5) gr) (modulate (t5 10) b)
            (p.semi && m) m
    else g.plot p x.toNat y.toNat r gr b p.semi false
  else g

/-! ## Triangles (R467, R468, R474) -/

/-- `e(a, b, p)` (R468). -/
def edge (a b : Vertex) (px py : Int) : Int :=
  (b.x - a.x) * (py - a.y) - (b.y - a.y) * (px - a.x)

/-- A pixel on the edge `a -> b` belongs to it: a top or a left edge (R468). -/
def topLeft (a b : Vertex) : Bool := (b.y == a.y && b.x > a.x) || b.y < a.y

/-- The edge's weight admits the pixel (R468). -/
def admits (a b : Vertex) (w : Int) : Bool := w > 0 || (w == 0 && topLeft a b)

/-- Two vertices lie too far apart (R467). -/
def tooFar (a b : Vertex) : Bool :=
  1023 < (a.x - b.x).natAbs || 511 < (a.y - b.y).natAbs

/-- INTERP (R474; log 7): the default barycentric floor, or a free value under the rule's three
constraints. -/
def interpolated (p : Interp) (area w0 w1 w2 : Int) (a0 a1 a2 : Nat) : Nat :=
  match p with
  | .barycentric => ((w0 * a0 + w1 * a1 + w2 * a2) / area).toNat
  | .free =>
    if a0 = a1 ∧ a1 = a2 then a0
    else if w1 = 0 ∧ w2 = 0 then a0
    else if w0 = 0 ∧ w2 = 0 then a1
    else if w0 = 0 ∧ w1 = 0 then a2
    else max (min a0 (min a1 a2)) (min (max a0 (max a1 a2)) (Config.rawInterp w0 w1 w2 a0 a1 a2))

/-- One pixel of a triangle whose area is positive. -/
def Gpu.trianglePixel (g : Gpu) (k : Interp) (p : Paint) (a b c : Vertex) (x y : Int) : Gpu :=
  let w0 := edge b c x y
  let w1 := edge c a x y
  let w2 := edge a b x y
  if admits b c w0 && admits c a w1 && admits a b w2 then
    let at' (f : Vertex → Nat) : Nat := interpolated k (w0 + w1 + w2) w0 w1 w2 (f a) (f b) (f c)
    g.shadePixel p x y (at' (·.r)) (at' (·.g)) (at' (·.b)) (at' (·.u)) (at' (·.v))
  else g

/-- The pixels of a triangle whose area is positive, row by row, left to right, over its bounding box. -/
def Gpu.coverage (g : Gpu) (k : Interp) (p : Paint) (a b c : Vertex) : Gpu :=
  let x0 := min a.x (min b.x c.x)
  let x1 := max a.x (max b.x c.x)
  let y0 := min a.y (min b.y c.y)
  let y1 := max a.y (max b.y c.y)
  countUp (y1 - y0 + 1).toNat (fun j g =>
    countUp (x1 - x0 + 1).toNat (fun i g => g.trianglePixel k p a b c (x0 + i) (y0 + j)) g) g

/-- Draw a triangle (R467, R468). -/
def Gpu.triangle (g : Gpu) (k : Interp) (p : Paint) (a b c : Vertex) : Gpu :=
  if tooFar a b || tooFar b c || tooFar a c then g
  else
    let area := edge a b c.x c.y
    if area = 0 then g
    else if area < 0 then g.coverage k p a c b
    else g.coverage k p a b c

/-! ## Lines and rectangles (R476, R477) -/

/-- Point `k` of the `n` steps from `a` along `d`; with `n` = 0 it is `a` (R476). -/
def lineStep (a d k n : Int) : Int := a + (2 * d * k + n) / (2 * n)

/-- INTERP along a line, one channel at step `k` of `n` (R476, 93_implementation_defined.md U18; log 7): the
default formula, or a free value under the constraints of R474. With `n` = 0 no rule says which end a shaded
pixel takes, so the value is free between the two in both. -/
def lineColour (p : Interp) (c0 c1 k n : Nat) : Nat :=
  let between := max (min c0 c1) (min (max c0 c1) (Config.rawLine k n c0 c1))
  if c0 = c1 then c0
  else if n = 0 then between
  else
    match p with
    | .barycentric => (c0 * (n - k) + c1 * k) / n
    | .free => if k = 0 then c0 else if k = n then c1 else between

/-- Draw a line (R467, R476); an unshaded one has the same colour at both ends. -/
def Gpu.line (g : Gpu) (i : Interp) (p : Paint) (a b : Vertex) : Gpu :=
  if tooFar a b then g
  else
    let n := max (b.x - a.x).natAbs (b.y - a.y).natAbs
    countUp (n + 1) (fun k g =>
      g.shadePixel p (lineStep a.x (b.x - a.x) k n) (lineStep a.y (b.y - a.y) k n)
        (lineColour i a.r b.r k n) (lineColour i a.g b.g k n) (lineColour i a.b b.b k n) 0 0) g

/-- Draw a rectangle from its corner (R477). -/
def Gpu.rectangle (g : Gpu) (p : Paint) (c : Vertex) (w h : Nat) : Gpu :=
  countUp h (fun j g =>
    countUp w (fun i g =>
      g.shadePixel p (c.x + i) (c.y + j) c.r c.g c.b ((c.u + i) % 256) ((c.v + j) % 256)) g) g

/-! ## Log regions (R446 to R448) -/

/-- The box `x0 .. x1`, `y0 .. y1` clipped to the drawing area; an empty one is all zero (log 18). -/
def Gpu.clippedBox (g : Gpu) (x0 y0 x1 y1 : Int) : Rect :=
  let l := max x0 (g.areaTl.extractLsb' 0 10).toNat
  let t := max y0 (g.areaTl.extractLsb' 10 9).toNat
  let r := min x1 (g.areaBr.extractLsb' 0 10).toNat
  let b := min y1 (g.areaBr.extractLsb' 10 9).toNat
  if l ≤ r ∧ t ≤ b then ⟨l.toNat, t.toNat, (r - l + 1).toNat, (b - t + 1).toNat⟩ else ⟨0, 0, 0, 0⟩

/-- The bounding box of vertices, clipped. -/
def Gpu.vertexBox (g : Gpu) (a : Vertex) (vs : List Vertex) : Rect :=
  g.clippedBox (vs.foldl (fun m v => min m v.x) a.x) (vs.foldl (fun m v => min m v.y) a.y)
    (vs.foldl (fun m v => max m v.x) a.x) (vs.foldl (fun m v => max m v.y) a.y)

end Sys2Proof.Machine
end

