-- ==== Sys2Proof/Machine/Gp0.lean ====
section
/-!
DEFINITION. The commands of the GP0 port (47_gpu_commands.md sections 2 to 4), one meaning each. A meaning is
what the complete command does, at the moment its last word is written (R430); its words stand in `buf`
(R435; log 16).
-/

namespace Sys2Proof.Machine

/-- Run a complete command: its words are in `buf`, the mode is Idle unless the command opens a transfer
(R435). -/
def gp0Run (i : Instr) (f : Gpu → Gpu) (s : State) : Out :=
  .next (s.setGpu (f { s.gpu with buf := encodeWords i, mode := .idle }))

/-! ## Polygons -/

/-- The further words of a polygon, one vertex after another: how many stand before vertex `k` (R446). -/
def vertexBase (shaded textured : Bool) (k : Nat) : Nat :=
  k * (1 + shaded.toNat + textured.toNat) - shaded.toNat

/-- Vertex `k` of a polygon (R446): its colour is the first word's for `k` = 0 and for an unshaded one. -/
def Gpu.polygonVertex (g : Gpu) (shaded textured : Bool) (colour : Word) (args : List Word) (k : Nat) :
    Vertex :=
  let b := vertexBase shaded textured k
  if k = 0 then g.vertex colour (args.getD 0 0) (args.getD 1 0)
  else if shaded then g.vertex (args.getD b 0) (args.getD (b + 1) 0) (args.getD (b + 2) 0)
  else g.vertex colour (args.getD b 0) (args.getD (b + 1) 0)

/-- The texcoord word of vertex 1, which carries the page (R446, R479). -/
def pageWord (shaded : Bool) (args : List Word) : Word :=
  args.getD (vertexBase shaded true 1 + shaded.toNat + 1) 0

/-- A polygon once its words are in `buf` (R446). -/
def Gpu.polygon (k : Interp) (shaded quad textured semi raw : Bool) (colour : Word) (args : List Word)
    (g0 : Gpu) : Gpu :=
  let g := if textured then g0.setStat 0x1FF#32 (pageWord shaded args >>> 16) else g0
  let p : Paint :=
    { semi := semi
      dither := g.stat.getLsbD 9 && (if textured then !raw else shaded)
      textured := textured
      raw := raw
      clutX := clutX (args.getD 1 0)
      clutY := clutY (args.getD 1 0) }
  let v := g.polygonVertex shaded textured colour args
  let g1 := g.triangle k p (v 0) (v 1) (v 2)
  if quad then (g1.triangle k p (v 1) (v 2) (v 3)).logRegion (g.vertexBox (v 0) [v 1, v 2, v 3])
  else g1.logRegion (g.vertexBox (v 0) [v 1, v 2])

/-- A line once its words are in `buf` (R447). -/
def Gpu.drawLine (i : Interp) (shaded semi : Bool) (colour : Word) (args : List Word) (g : Gpu) : Gpu :=
  let p : Paint := ⟨semi, g.stat.getLsbD 9, false, false, 0, 0⟩
  let a := g.vertex colour (args.getD 0 0) 0
  let b :=
    if shaded then g.vertex (args.getD 1 0) (args.getD 2 0) 0 else g.vertex colour (args.getD 1 0) 0
  (g.line i p a b).logRegion (g.vertexBox a [b])

/-- The size of a rectangle: fixed by `zz`, or the last word (R448). -/
def rectSize (size : BitVec 2) (textured : Bool) (args : List Word) : Nat × Nat :=
  match size.toNat with
  | 0 => cornerOf (args.getD (1 + textured.toNat) 0)
  | 1 => (1, 1)
  | 2 => (8, 8)
  | _ => (16, 16)

/-- A rectangle once its words are in `buf` (R448). -/
def Gpu.drawRect (size : BitVec 2) (textured semi raw : Bool) (colour : Word) (args : List Word)
    (g : Gpu) : Gpu :=
  let tex := args.getD 1 0
  let p : Paint := ⟨semi, false, textured, raw, clutX tex, clutY tex⟩
  let c := g.vertex colour (args.getD 0 0) tex
  let z := rectSize size textured args
  (g.rectangle p c z.1 z.2).logRegion (g.clippedBox c.x c.y (c.x + z.1 - 1) (c.y + z.2 - 1))

/-- A fill once its words are in `buf` (R444). -/
def Gpu.fillCommand (colour pos size : Word) (g : Gpu) : Gpu :=
  let x0 := bitsAt pos 0 10 / 16 * 16
  let y0 := bitsAt pos 16 9
  let w := (bitsAt size 0 10 + 0xF) / 16 * 16
  let h := bitsAt size 16 9
  (g.fill x0 y0 w h (to15 (red colour) (green colour) (blue colour))).logRegion ⟨x0, y0, w, h⟩

/-- A copy once its words are in `buf` (R449). -/
def Gpu.copyCommand (src dst size : Word) (g : Gpu) : Gpu :=
  let a := cornerOf src
  let b := cornerOf dst
  let z := sizeOf size
  (g.copy a.1 a.2 b.1 b.2 z.1 z.2).logRegion ⟨b.1, b.2, z.1, z.2⟩

/-! ## The meanings -/

/-- NOP (R442). -/
def execGp0Nop (arg : BitVec 24) (s : State) : Out := gp0Run (.gp0Nop arg) id s

/-- Clear texture cache: there is none (R443). -/
def execGp0ClearCache (arg : BitVec 24) (s : State) : Out := gp0Run (.gp0ClearCache arg) id s

/-- Fill rectangle (R444). -/
def execGp0Fill (colour : BitVec 24) (pos size : Word) (s : State) : Out :=
  gp0Run (.gp0Fill colour pos size) (Gpu.fillCommand (colour.setWidth 32) pos size) s

/-- Interrupt request (R445): I_STAT bit 1 only when GPUSTAT bit 24 rises. -/
def execGp0Irq (arg : BitVec 24) (s : State) : Out :=
  gp0Run (.gp0Irq arg) (·.setStat 0x01000000#32 0x01000000#32)
    (s.raiseIrq 1 (!s.gpu.stat.getLsbD 24))

/-- Polygon (R446). -/
def execGp0Polygon (shaded quad textured semi raw : Bool) (colour : BitVec 24) (args : List Word)
    (s : State) : Out :=
  gp0Run (.gp0Polygon shaded quad textured semi raw colour args)
    (Gpu.polygon s.params.interp shaded quad textured semi raw (colour.setWidth 32) args) s

/-- Line (R447). -/
def execGp0Line (shaded ign2 semi ign0 : Bool) (colour : BitVec 24) (args : List Word) (s : State) : Out :=
  gp0Run (.gp0Line shaded ign2 semi ign0 colour args)
    (Gpu.drawLine s.params.interp shaded semi (colour.setWidth 32) args) s

/-- Rectangle (R448). -/
def execGp0Rect (size : BitVec 2) (textured semi raw : Bool) (colour : BitVec 24) (args : List Word)
    (s : State) : Out :=
  gp0Run (.gp0Rect size textured semi raw colour args)
    (Gpu.drawRect size textured semi raw (colour.setWidth 32) args) s

/-- Copy VRAM to VRAM (R449). -/
def execGp0CopyVram (arg : BitVec 24) (src dst size : Word) (s : State) : Out :=
  gp0Run (.gp0CopyVram arg src dst size) (Gpu.copyCommand src dst size) s

/-- Transfer processor to VRAM: the data words follow (R460). -/
def execGp0ToVram (arg : BitVec 24) (dst size : Word) (s : State) : Out :=
  gp0Run (.gp0ToVram arg dst size) (·.openTransfer .toVram dst size) s

/-- Transfer VRAM to processor: the data reads follow (R464). -/
def execGp0FromVram (arg : BitVec 24) (src size : Word) (s : State) : Out :=
  gp0Run (.gp0FromVram arg src size) (·.openTransfer .fromVram src size) s

/-- Draw mode (R450). -/
def execGp0DrawMode (arg : BitVec 24) (s : State) : Out :=
  gp0Run (.gp0DrawMode arg)
    (fun g => { g.setStat 0x7FF#32 (arg.setWidth 32) with rectFlip := arg.extractLsb' 12 2 }) s

/-- Texture window (R451). -/
def execGp0TexWindow (arg : BitVec 24) (s : State) : Out :=
  gp0Run (.gp0TexWindow arg) ({ · with texwin := arg.extractLsb' 0 20 }) s

/-- Drawing area top left (R452). -/
def execGp0AreaTl (arg : BitVec 24) (s : State) : Out :=
  gp0Run (.gp0AreaTl arg) ({ · with areaTl := arg.extractLsb' 0 19 }) s

/-- Drawing area bottom right (R453). -/
def execGp0AreaBr (arg : BitVec 24) (s : State) : Out :=
  gp0Run (.gp0AreaBr arg) ({ · with areaBr := arg.extractLsb' 0 19 }) s

/-- Drawing offset (R454). -/
def execGp0Offset (arg : BitVec 24) (s : State) : Out :=
  gp0Run (.gp0Offset arg) ({ · with offset := arg.extractLsb' 0 22 }) s

/-- Mask bits (R455). -/
def execGp0MaskBits (arg : BitVec 24) (s : State) : Out :=
  gp0Run (.gp0MaskBits arg) (·.setStat 0x1800#32 (arg.setWidth 32 <<< 11)) s

end Sys2Proof.Machine
end

