-- ==== Sys2Proof/Machine/Gp1.lean ====
section
/-!
DEFINITION. The commands of the GP1 port (47_gpu_commands.md section 5), one meaning each. Each takes effect
at the write.
-/

namespace Sys2Proof.Machine

/-- Run a GP1 command on the unit. -/
def gp1Run (f : Gpu → Gpu) (s : State) : Out := .next (s.setGpu (f s.gpu))

/-- Reset (R481): VRAM, `readlatch`, `field` and `log` are not changed; `rect` and `cur` have no reset
value, and keep what they hold. -/
def Gpu.softReset (g : Gpu) : Gpu :=
  { g with
    mode := .idle
    buf := []
    rem := 0
    stat := 0x14802000#32
    texwin := 0
    areaTl := 0
    areaBr := 0
    offset := 0
    rectFlip := 0
    dispStart := 0
    hRange := 0xC00200#24
    vRange := 0x40010#20 }

/-- The bits of GPUSTAT that a display-mode word sets (R489). -/
def displayMode (arg : BitVec 24) : Word :=
  let w : Word := arg.setWidth 32
  ((w &&& 0x3F#32) <<< 17) ||| ((w &&& 0x40#32) <<< 10) ||| ((w &&& 0x80#32) <<< 7)

/-- GP1 reset (R481). -/
def execGp1Reset (_ : BitVec 24) (s : State) : Out := gp1Run Gpu.softReset s

/-- Reset command buffer: a transfer in progress is abandoned (R482). -/
def execGp1ResetBuffer (_ : BitVec 24) (s : State) : Out :=
  gp1Run ({ · with mode := .idle, buf := [], rem := 0 }) s

/-- Acknowledge interrupt: I_STAT is not touched (R483). -/
def execGp1AckIrq (_ : BitVec 24) (s : State) : Out := gp1Run (·.setStat 0x01000000#32 0) s

/-- Display enable (R484). -/
def execGp1DisplayEnable (arg : BitVec 24) (s : State) : Out :=
  gp1Run (·.setStat 0x00800000#32 (arg.setWidth 32 <<< 23)) s

/-- DMA direction (R485). -/
def execGp1DmaDirection (arg : BitVec 24) (s : State) : Out :=
  gp1Run (·.setStat 0x60000000#32 (arg.setWidth 32 <<< 29)) s

/-- Display area start (R486). -/
def execGp1DisplayStart (arg : BitVec 24) (s : State) : Out :=
  gp1Run ({ · with dispStart := arg.extractLsb' 0 19 }) s

/-- Horizontal display range (R487). -/
def execGp1HRange (arg : BitVec 24) (s : State) : Out := gp1Run ({ · with hRange := arg }) s

/-- Vertical display range (R488). -/
def execGp1VRange (arg : BitVec 24) (s : State) : Out :=
  gp1Run ({ · with vRange := arg.extractLsb' 0 20 }) s

/-- Display mode (R489). -/
def execGp1DisplayMode (arg : BitVec 24) (s : State) : Out :=
  gp1Run (·.setStat 0x007F4000#32 (displayMode arg)) s

/-- The word GP1 0x10 latches for `k`, if any (R490). -/
def Gpu.info (g : Gpu) (k : Nat) : Word :=
  match k with
  | 2 => g.texwin.setWidth 32
  | 3 => g.areaTl.setWidth 32
  | 4 => g.areaBr.setWidth 32
  | 5 => g.offset.setWidth 32
  | _ => g.readlatch

/-- Get information (R490). -/
def execGp1GetInfo (arg : BitVec 24) (s : State) : Out :=
  gp1Run (fun g => { g with readlatch := g.info (arg.extractLsb' 0 4).toNat }) s

end Sys2Proof.Machine
end

