-- ==== Sys2Proof/Machine/GpuPort.lean ====
section
/-!
DEFINITION. The two graphics ports (47_gpu_commands.md R431, R433 to R437, R441, R466): the command machine,
GPUREAD, GPUSTAT, and the effect of a vertical-blank tick (R493, R494).
-/

namespace Sys2Proof.Machine

/-- The GP0 port address. -/
def gp0Port : Word := 0x1F801810#32
/-- The GP1 port address. -/
def gp1Port : Word := 0x1F801814#32

/-- Execute a complete GP0 command (R435). -/
def runGp0 (buf : List Word) (s : State) : Out :=
  match decodeGp0 buf with
  | .ok (.gp0Nop a, _) => execGp0Nop a s
  | .ok (.gp0ClearCache a, _) => execGp0ClearCache a s
  | .ok (.gp0Fill c p z, _) => execGp0Fill c p z s
  | .ok (.gp0Irq a, _) => execGp0Irq a s
  | .ok (.gp0Polygon sh q t a r c ws, _) => execGp0Polygon sh q t a r c ws s
  | .ok (.gp0Line sh i2 a i0 c ws, _) => execGp0Line sh i2 a i0 c ws s
  | .ok (.gp0Rect z t a r c ws, _) => execGp0Rect z t a r c ws s
  | .ok (.gp0CopyVram a x y z, _) => execGp0CopyVram a x y z s
  | .ok (.gp0ToVram a d z, _) => execGp0ToVram a d z s
  | .ok (.gp0FromVram a d z, _) => execGp0FromVram a d z s
  | .ok (.gp0DrawMode a, _) => execGp0DrawMode a s
  | .ok (.gp0TexWindow a, _) => execGp0TexWindow a s
  | .ok (.gp0AreaTl a, _) => execGp0AreaTl a s
  | .ok (.gp0AreaBr a, _) => execGp0AreaBr a s
  | .ok (.gp0Offset a, _) => execGp0Offset a s
  | .ok (.gp0MaskBits a, _) => execGp0MaskBits a s
  | _ => .fault (.unknownOpcode .graphics gp0Port (buf.headD 0))

/-- `submit_command_word(word)`, the GP0 write (R435, R437, R441, R462). -/
def submitCommandWord (w : Word) (s : State) : Out :=
  match s.gpu.mode with
  | .idle =>
    match gp0Words (fCmd w) with
    | none => .fault (.unknownOpcode .graphics gp0Port w)
    | some n =>
      if n ≤ 1 then runGp0 [w] s
      else .next (s.setGpu { s.gpu with buf := [w], mode := .awaiting (n - 1) })
  | .awaiting n =>
    if 1 < n then .next (s.setGpu { s.gpu with buf := s.gpu.buf ++ [w], mode := .awaiting (n - 1) })
    else runGp0 (s.gpu.buf ++ [w]) s
  | .toVram => .next (s.setGpu (s.gpu.receive w))
  | .fromVram => .fault (.dmaDesyncError .graphics gp0Port w)

/-- The GP1 write (R480, R441). -/
def runGp1 (w : Word) (s : State) : Out :=
  match decodeGp1 w with
  | .ok (.gp1Reset a) => execGp1Reset a s
  | .ok (.gp1ResetBuffer a) => execGp1ResetBuffer a s
  | .ok (.gp1AckIrq a) => execGp1AckIrq a s
  | .ok (.gp1DisplayEnable a) => execGp1DisplayEnable a s
  | .ok (.gp1DmaDirection a) => execGp1DmaDirection a s
  | .ok (.gp1DisplayStart a) => execGp1DisplayStart a s
  | .ok (.gp1HRange a) => execGp1HRange a s
  | .ok (.gp1VRange a) => execGp1VRange a s
  | .ok (.gp1DisplayMode a) => execGp1DisplayMode a s
  | .ok (.gp1GetInfo a) => execGp1GetInfo a s
  | _ => .fault (.unknownOpcode .graphics gp1Port w)

/-- GPUREAD (R434, R466). -/
def gpuRead (s : State) : Word × State :=
  if s.gpu.mode = .fromVram then (s.gpu.send.1, s.setGpu s.gpu.send.2) else (s.gpu.readlatch, s)

/-- `on` as bit `n` of a word. -/
def bitWord (n : Nat) (on : Bool) : Word := (BitVec.ofBool on).setWidth 32 <<< n

/-- Bit 25 of GPUSTAT (R433). -/
def Gpu.dmaRequest (g : Gpu) : Bool :=
  match bitsAt g.stat 29 2 with
  | 0 => false
  | 1 => true
  | 2 => g.mode != .fromVram
  | _ => g.mode == .fromVram

/-- GPUSTAT: the stored bits with the live ones (R433). -/
def Gpu.readStat (g : Gpu) : Word :=
  (g.stat &&& 0x61FF5FFF#32) ||| bitWord 13 (!g.stat.getLsbD 22 || !g.field) |||
    bitWord 25 g.dmaRequest ||| bitWord 26 (g.mode == .idle) ||| bitWord 27 (g.mode == .fromVram) |||
    bitWord 28 (g.mode != .fromVram) ||| bitWord 31 g.field

/-- A read of a graphics port (R431). -/
def graphicsRead (off : Nat) (s : State) : Word × State :=
  if off = 0 then gpuRead s else (s.gpu.readStat, s)

/-- A write to a graphics port (R431). -/
def graphicsWrite (off : Nat) (w : Word) (s : State) : Out :=
  if off = 0 then submitCommandWord w s else runGp1 w s

/-- A vertical-blank tick: I_STAT bit 0, the field toggles, the draw log is closed as one frame, which the
host may take (R493, R494). -/
def vblank (b : Bool) (s : State) : State :=
  (s.raiseIrq 0 b).setGpu
    { s.gpu with
      field := s.gpu.field ^^ b
      frame := if b then s.gpu.log else s.gpu.frame
      log := if b then [] else s.gpu.log }

end Sys2Proof.Machine
end

