-- ==== Sys2Proof/Machine/Dma.lean ====
section
/-!
DEFINITION. The DMA engine (49_dma.md): registers, activation, the four kinds of transfer, completion, and
the engine's slot.
-/

namespace Sys2Proof.Config

/-- The engine after its slot has halted, by the state that has landed (10_state.md R60: any value; log 10). -/
opaque haltedDma : Machine.State → Machine.Dma

/-- The graphics processor after a write of the engine to its port has halted (93_implementation_defined.md U11: any
value; log 10). -/
opaque haltedGpu : Machine.State → Machine.Gpu

end Sys2Proof.Config

namespace Sys2Proof.Machine

/-- `f 0`, then `f 1`, ... then `f (n - 1)`, stopping at the first that does not answer a next state. -/
def repeatOut (n : Nat) (f : Nat → State → Out) (s : State) : Out :=
  match n with
  | 0 => .next s
  | k + 1 =>
    match repeatOut k f s with
    | .next t => f k t
    | .fault e => .fault e
    | .refused e => .refused e

/-- The state in which a repetition stands after the effects that went through: all, or those before the first
that did not answer next. -/
def repeatLast (n : Nat) (f : Nat → State → Out) (s : State) : State :=
  match n with
  | 0 => s
  | k + 1 =>
    match repeatOut (k + 1) f s with
    | .next t => t
    | _ => repeatLast k f s

/-! ## Registers (R562, R563, R568) -/

/-- Channel `n`; the engine has seven. -/
def Dma.chan (d : Dma) (n : Nat) : Channel := (d.ch[n]?).getD .reset

/-- Replace channel `n`. -/
def Dma.setChan (d : Dma) (n : Nat) (c : Channel) : Dma := { d with ch := d.ch.setIfInBounds n c }

/-- The bits of CHCR that are stored (R562). -/
def chcrMask (n : Nat) : Word := if n = 6 then 0x51000000#32 else 0x71770703#32

/-- CHCR as it reads: bit 1 of channel 6 is always 1 (R562). -/
def Dma.readChcr (d : Dma) (n : Nat) : Word :=
  if n = 6 then (d.chan n).chcr ||| 2#32 else (d.chan n).chcr

/-- Bit 31 of DICR, always computed (R568). -/
def Dma.master (d : Dma) : Bool :=
  d.dicr.getLsbD 15 ||
    (d.dicr.getLsbD 23 && (d.dicr.extractLsb' 16 7 &&& d.dicr.extractLsb' 24 7) != 0#7)

/-- DICR as it reads (R568). -/
def Dma.readDicr (d : Dma) : Word := d.dicr ||| bitWord 31 d.master

/-- The stored bits of DICR after a write (R568): flags are cleared by writing 1. -/
def dicrAfter (old v : Word) : Word :=
  (v &&& 0x00FF803F#32) ||| (old &&& ~~~v &&& 0x7F000000#32)

/-- Replace the engine; a rise of DICR bit 31 sets I_STAT bit 3 (R568). -/
def setDmaEdge (d : Dma) (s : State) : State :=
  (s.raiseIrq 3 (d.master && !s.dma.master)).setDma d

/-- A register at an offset that is not a stub latch (R561). -/
def Dma.readReg (d : Dma) (off : Nat) : Word :=
  if off = 0x70 then d.dpcr
  else if off = 0x74 then d.readDicr
  else
    match off % 16 with
    | 0 => (d.chan (off / 16)).madr.setWidth 32
    | 4 => (d.chan (off / 16)).bcr
    | _ => d.readChcr (off / 16)

/-- The engine after a write to a register that is not a stub latch (R561, R562, R568). -/
def Dma.writeReg (d : Dma) (off : Nat) (v : Word) : Dma :=
  if off = 0x70 then { d with dpcr := v }
  else if off = 0x74 then { d with dicr := dicrAfter d.dicr v }
  else
    let n := off / 16
    match off % 16 with
    | 0 => d.setChan n { d.chan n with madr := v.setWidth 24 }
    | 4 => d.setChan n { d.chan n with bcr := v }
    | _ => d.setChan n { d.chan n with chcr := v &&& chcrMask n }

/-- SYNC (R563). -/
def Channel.sync (c : Channel) : Nat := bitsAt c.chcr 9 2

/-- DIR = 1: RAM to peripheral (R563). -/
def Channel.toDevice (c : Channel) : Bool := c.chcr.getLsbD 0

/-- The channel is active (R565). -/
def Dma.active (d : Dma) (n : Nat) : Bool :=
  let c := d.chan n
  c.chcr.getLsbD 24 && d.dpcr.getLsbD (4 * n + 3) && (c.sync != 0 || c.chcr.getLsbD 28)

/-- A count field, 0 meaning 0x10000 (R564). -/
def countField (v : Nat) : Nat := if v = 0 then 0x10000 else v

/-- The words an immediate or a block transfer moves (R564, R571). -/
def Channel.total (c : Channel) : Nat :=
  if c.sync = 0 then countField (bitsAt c.bcr 0 16)
  else countField (bitsAt c.bcr 0 16) * countField (bitsAt c.bcr 16 16)

/-- The address of word `j` (R571). -/
def Channel.address (c : Channel) (j : Nat) : Word :=
  let a : Word := c.madr.setWidth 32
  if c.chcr.getLsbD 1 then a - BitVec.ofNat 32 (4 * j) else a + BitVec.ofNat 32 (4 * j)

/-! ## RAM (R566) -/

/-- Where an engine address falls in RAM: a word boundary, wrapping. -/
def ramIndex (a : Word) : Nat := (a &&& 0x001FFFFC#32).toNat

/-- `RAM32[a]`. -/
def ramWord (s : State) (a : Word) : Word := Memory.read s.mem (ramIndex a) .word

/-- `RAM32[a] <- v`. -/
def setRamWord (a v : Word) (s : State) : State := s.setMem (Memory.write s.mem (ramIndex a) .word v)

/-! ## Transfers -/

/-- The address of a channel's CHCR, which a desync halt names. -/
def chcrAddress (n : Nat) : Word := 0x1F801088#32 + BitVec.ofNat 32 (0x10 * n)

/-- The halt of a channel (R571, R575, R577, R578). -/
def desync (n : Nat) (s : State) : Out :=
  .fault (.dmaDesyncError .dma (chcrAddress n) (s.dma.readChcr n))

/-- Completion (R572). -/
def complete (n : Nat) (s : State) : State :=
  let c := s.dma.chan n
  let d := s.dma.setChan n { c with chcr := c.chcr &&& ~~~0x11000000#32 }
  setDmaEdge
    { d with
      dicr := if d.dicr.getLsbD (16 + n) then d.dicr ||| bitWord (24 + n) true else d.dicr } s

/-- After a block transfer MADR and the block count have moved (R571). -/
def finishBlocks (n : Nat) (s : State) : State :=
  let c := s.dma.chan n
  if c.sync = 1 then
    s.setDma (s.dma.setChan n
      { c with madr := (c.address c.total).setWidth 24, bcr := c.bcr &&& 0xFFFF#32 })
  else s

/-- One word from RAM to the graphics processor (R571, 47_gpu_commands.md R492). -/
def wordToGpu (c : Channel) (j : Nat) (s : State) : Out :=
  submitCommandWord (ramWord s (c.address j)) s

/-- One word from the graphics processor to RAM. -/
def wordFromGpu (c : Channel) (j : Nat) (s : State) : Out :=
  .next (setRamWord (c.address j) (gpuRead s).1 (gpuRead s).2)

/-- One word from the disc controller to RAM (48_cdrom_commands.md R518). -/
def wordFromDisc (c : Channel) (j : Nat) (s : State) : Out :=
  .next (setRamWord (c.address j) s.cdc.popWord.1 (s.setCdc s.cdc.popWord.2))

/-- The end of a channel-2 transfer: the graphics processor must be idle (R575). -/
def endGpuTransfer (s : State) : Out :=
  if s.gpu.mode = .idle then .next (complete 2 (finishBlocks 2 s)) else desync 2 s

/-- What follows a transfer that went through. -/
def andThen (o : Out) (f : State → Out) : Out :=
  match o with
  | .next s => f s
  | .fault e => .fault e
  | .refused e => .refused e

/-- A block or immediate transfer on channel 2 (R571, R575). -/
def gpuBlocks (s : State) : Out :=
  let c := s.dma.chan 2
  if c.toDevice then andThen (repeatOut c.total (wordToGpu c) s) endGpuTransfer
  else if s.gpu.mode = .fromVram then andThen (repeatOut c.total (wordFromGpu c) s) endGpuTransfer
  else desync 2 s

/-- A block or immediate transfer on channel 3 (R571, R577). -/
def discBlocks (s : State) : Out :=
  let c := s.dma.chan 3
  if c.toDevice || s.cdc.data.length < 4 * c.total then desync 3 s
  else
    andThen (repeatOut c.total (wordFromDisc c) s) fun t => .next (complete 3 (finishBlocks 3 t))

/-- Word `j` of the node at `a`, to the graphics processor (R573). -/
def wordOfNode (a : Word) (j : Nat) (s : State) : Out :=
  submitCommandWord (ramWord s (a + BitVec.ofNat 32 (4 * (j + 1)))) s

/-- The nodes of a linked list, at most `fuel` of them: the last header and the state (R573). `header` is the
one of the node before, 0 at first (log 25). -/
def linkedNodes : Nat → Word → Word → State → Except Fault (Word × State)
  | 0, a, header, _ => .error (.dmaDesyncError .dma a header)
  | fuel + 1, a, _, s =>
    let h := ramWord s a
    match repeatOut (bitsAt h 24 8) (wordOfNode a) s with
    | .fault e => .error e
    | .refused _ => .error .halted
    | .next t => if h.getLsbD 23 then .ok (h, t) else linkedNodes fuel (h &&& 0xFFFFFF#32) h t

/-- A linked-list transfer on channel 2 (R573, R575). -/
def gpuList (s : State) : Out :=
  match linkedNodes s.params.llCap ((s.dma.chan 2).madr.setWidth 32) 0 s with
  | .error e => .fault e
  | .ok (h, t) =>
    endGpuTransfer (t.setDma (t.dma.setChan 2 { t.dma.chan 2 with madr := h.setWidth 24 }))

/-- One word of an ordering table of `n` (R574). -/
def clearWord (madr : Word) (n i : Nat) (s : State) : Out :=
  let a := madr - BitVec.ofNat 32 (4 * i)
  .next (setRamWord a (if i + 1 = n then 0x00FFFFFF#32 else (a - 4#32) &&& 0x001FFFFF#32) s)

/-- The ordering-table clear of channel 6 (R574). -/
def clearTable (s : State) : Out :=
  let c := s.dma.chan 6
  let n := countField (bitsAt c.bcr 0 16)
  andThen (repeatOut n (clearWord (c.madr.setWidth 32) n) s) fun t => .next (complete 6 t)

/-- An active channel's whole transfer (R570 to R578). -/
def transfer (n : Nat) (s : State) : Out :=
  let c := s.dma.chan n
  match n, c.sync with
  | 6, _ => clearTable s
  | 2, 0 | 2, 1 => gpuBlocks s
  | 2, 2 => if c.toDevice then gpuList s else desync 2 s
  | 3, 0 | 3, 1 => discBlocks s
  | _, _ => desync n s

/-- Channel `n` in the engine's slot (R570). -/
def dmaChannel (n : Nat) (s : State) : Out := if s.dma.active n then transfer n s else .next s

/-- The engine's slot: channels 0 to 6 in order (R570). -/
def dmaSlot (s : State) : Out := repeatOut 7 dmaChannel s

/-! ## What has landed when the slot halts (10_state.md R60; log 10) -/

/-- After the words of a linked list that went through. -/
def listLast : Nat → Word → State → State
  | 0, _, s => s
  | fuel + 1, a, s =>
    let h := ramWord s a
    match repeatOut (bitsAt h 24 8) (wordOfNode a) s with
    | .next t => if h.getLsbD 23 then t else listLast fuel (h &&& 0xFFFFFF#32) t
    | _ => repeatLast (bitsAt h 24 8) (wordOfNode a) s

/-- After the words that went through of a transfer that halts; only channel 2 moves any before it halts. -/
def transferLast (n : Nat) (s : State) : State :=
  let c := s.dma.chan n
  match n, c.sync with
  | 2, 0 | 2, 1 =>
    if c.toDevice then repeatLast c.total (wordToGpu c) s
    else if s.gpu.mode = .fromVram then repeatLast c.total (wordFromGpu c) s
    else s
  | 2, 2 => if c.toDevice then listLast s.params.llCap (c.madr.setWidth 32) s else s
  | _, _ => s

/-- After the channels below `n` that went through and the words of the one that halts. -/
def slotLast : Nat → State → State
  | 0, s => s
  | n + 1, s =>
    match repeatOut n dmaChannel s with
    | .next t => transferLast n t
    | _ => slotLast n s

/-- The halt is R575's: a transfer of channel 2 that R571 or R573 runs met the graphics processor in the wrong state. -/
def endsUnready (e : Fault) (t : State) : Bool :=
  let c := t.dma.chan 2
  e.record.map (fun r => (r.component, r.address)) = some (.dma, chcrAddress 2) &&
    (c.sync == 0 || c.sync == 1 || (c.sync == 2 && c.toDevice))

/-- The engine after its slot has halted: in any state (10_state.md R60), but after a halt of R575 START of channel 2 is
still set, as C4 of 90_conflicts.md and the row "one word short" of 95_test_vectors.md say; that the rest is left free
beside them is the model's choice (log 10). -/
def haltedEngine (e : Fault) (t : State) : Dma :=
  let d := Config.haltedDma t
  if endsUnready e t then d.setChan 2 { d.chan 2 with chcr := (d.chan 2).chcr ||| bitWord 24 true } else d

/-- The state a slot that halts with `e` leaves: what has landed stays, and the engine is left as `haltedEngine` says;
the graphics processor is left in any state where its port's write has halted (10_state.md R60,
93_implementation_defined.md U11; log 10). -/
def haltedSlot (e : Fault) (s : State) : State :=
  let t := slotLast 7 s
  let u := t.setDma (haltedEngine e t)
  if e.record.map (·.component) = some .graphics then u.setGpu (Config.haltedGpu t) else u

end Sys2Proof.Machine
end

