-- ==== Sys2Proof/Machine/Timers.lean ====
section
/-!
DEFINITION. The three timers (60_exceptions.md R660 to R667): registers, count ticks, sync modes.
-/

namespace Sys2Proof.Machine

/-! ## Registers (R661, R664, R665) -/

/-- Timer `n`. -/
def Timers.get (t : Timers) (n : Nat) : Timer :=
  match n with
  | 0 => t.t0
  | 1 => t.t1
  | _ => t.t2

/-- Replace timer `n`. -/
def Timers.set (t : Timers) (n : Nat) (v : Timer) : Timers :=
  match n with
  | 0 => { t with t0 := v }
  | 1 => { t with t1 := v }
  | _ => { t with t2 := v }

/-- A mode write (R664). -/
def Timer.writeMode (t : Timer) (v : Word) : Timer :=
  { t with
    mode := (t.mode &&& 0x1800#13) ||| 0x400#13 ||| (v.extractLsb' 0 10).setWidth 13
    count := 0
    fired := false
    gate := false }

/-- A read of the register at offset `k` of a timer: count, mode, target (R661, R665). -/
def Timer.readReg (t : Timer) (k : Nat) : BitVec 16 × Timer :=
  match k with
  | 0 => (t.count, t)
  | 4 => (t.mode.setWidth 16, { t with mode := t.mode &&& 0x7FF#13 })
  | _ => (t.target, t)

/-- A write to the register at offset `k` of a timer (R661). -/
def Timer.writeReg (t : Timer) (k : Nat) (v : Word) : Timer :=
  match k with
  | 0 => { t with count := v.extractLsb' 0 16 }
  | 4 => t.writeMode v
  | _ => { t with target := v.extractLsb' 0 16 }

/-! ## Counting (R663, R666, R667) -/

/-- `irq(n)`: the timer, and whether its I_STAT bit is set (R666). -/
def Timer.irq (t : Timer) : Timer × Bool :=
  if !t.mode.getLsbD 6 && t.fired then (t, false)
  else if t.mode.getLsbD 7 then
    ({ t with fired := true, mode := t.mode ^^^ 0x400#13 }, t.mode.getLsbD 10)
  else ({ t with fired := true }, true)

/-- A reached bit, and its interrupt when the mode enables it (R666). -/
def Timer.reach (t : Timer) (reached : Bool) (flag : BitVec 13) (enable : Nat) : Timer × Bool :=
  if reached then
    let t1 := { t with mode := t.mode ||| flag }
    if t1.mode.getLsbD enable then t1.irq else (t1, false)
  else (t, false)

/-- One count tick that the sync mode lets through (R666). -/
def Timer.tick (t : Timer) : Timer × Bool :=
  let t0 := { t with count := if t.mode.getLsbD 3 && t.count == t.target then 0 else t.count + 1 }
  let r1 := t0.reach (t0.count == t0.target) 0x800#13 4
  let r2 := r1.1.reach (r1.1.count == 0xFFFF#16) 0x1000#13 5
  (r2.1, r1.2 || r2.2)

/-- `n` count ticks, one at a time. -/
def Timer.ticks : Nat → Timer → Timer × Bool
  | 0, t => (t, false)
  | n + 1, t => ((ticks n t).1.tick.1, (ticks n t).2 || (ticks n t).1.tick.2)

/-- SYNC_EN (R662). -/
def Timer.synced (t : Timer) : Bool := t.mode.getLsbD 0
/-- SYNC (R662). -/
def Timer.sync (t : Timer) : Nat := (t.mode.extractLsb' 1 2).toNat
/-- SRC (R662). -/
def Timer.src (t : Timer) : Nat := (t.mode.extractLsb' 8 2).toNat

/-- The blank ticks of a slot on timer 0 or 1 (R667). -/
def Timer.blank (t : Timer) (ticked : Bool) : Timer :=
  if t.synced && ticked then
    match t.sync with
    | 0 => t
    | 1 | 2 => { t with count := 0 }
    | _ => { t with gate := true }
  else t

/-- Timer 0 or 1 lets ticks through (R667). -/
def Timer.counts (t : Timer) : Bool :=
  if t.synced then
    match t.sync with
    | 0 | 1 => true
    | 2 => false
    | _ => t.gate
  else true

/-- Timer 2 lets ticks through (R667). -/
def Timer.counts2 (t : Timer) : Bool :=
  if t.synced then t.sync == 1 || t.sync == 2 else true

/-- Run a timer for its ticks if it counts. -/
def Timer.run (t : Timer) (counts : Bool) (n : Nat) : Timer × Bool :=
  if counts then t.ticks n else (t, false)

/-- The timers' slot: `c` system cycles, `d` dot-clock, `h` horizontal-blank ticks, `b` a vertical-blank
tick (R663, R667). -/
def timersSlot (c d h : Nat) (b : Bool) (s : State) : State :=
  let t := s.timers
  let a0 := t.t0.blank (h != 0)
  let a1 := t.t1.blank b
  let r0 := a0.run a0.counts (if a0.src % 2 = 0 then c else d)
  let r1 := a1.run a1.counts (if a1.src % 2 = 0 then c else h)
  let scaled : Bool := 2 ≤ t.t2.src
  let total := t.pre.toNat + c
  let r2 := t.t2.run t.t2.counts2 (if scaled then total / 8 else c)
  ((((s.raiseIrq 4 r0.2).raiseIrq 5 r1.2).raiseIrq 6 r2.2).setTimers
    { t0 := r0.1, t1 := r1.1, t2 := r2.1, pre := if scaled then BitVec.ofNat 3 total else t.pre })

end Sys2Proof.Machine
end

