-- ==== Sys2Proof/Machine/Bus.lean ====
section
/-!
DEFINITION. The bus (20_memory.md R80 to R89) and the processor's access to it (R90, R91, R94).
-/

namespace Sys2Proof.Machine

/-- The failure of a read (R80). -/
def readError (pa : Word) (n : Width) : Fault := .busError .bus pa (BitVec.ofNat 32 n.bytes)

/-- The low `8 n` bits of a value. -/
def lowBits (n : Width) (v : Word) : Word :=
  match n with
  | .byte => v &&& 0xFF#32
  | .half => v &&& 0xFFFF#32
  | .word => v

/-- The failure of a write (R81). -/
def writeError (pa : Word) (n : Width) (v : Word) : Fault := .busError .bus pa (lowBits n v)

/-- The owner of an access that the map and the width rules admit: device registers are accessed at their own
base offset (R80, R83, R85). -/
def owner (pa : Word) (n : Width) : Option Region :=
  match resolve pa.toNat n.bytes with
  | none => none
  | some r =>
    if r.owner.takes n then
      match r.owner with
      | .intc | .timers | .dma | .graphics => if (pa.toNat - r.base) % 4 = 0 then some r else none
      | _ => some r
    else none

/-- `BusRead(pa, n)` (R80, R84, R88). -/
def busRead (pa : Word) (n : Width) (s : State) : Except Fault (Word × State) :=
  match owner pa n with
  | none => .error (readError pa n)
  | some r =>
    let off := pa.toNat - r.base
    match r.owner with
    | .ram | .scratchpad | .rom | .stub => .ok (Memory.read s.mem pa.toNat n, s)
    | .intc => .ok ((if off = 0 then s.intc.istat else s.intc.imask).setWidth 32, s)
    | .dma =>
      if deviceLatch pa.toNat then .ok (Memory.read s.mem pa.toNat n, s) else .ok (s.dma.readReg off, s)
    | .timers =>
      if deviceLatch pa.toNat then .ok (Memory.read s.mem pa.toNat n, s)
      else
        let r := (s.timers.get (off / 16)).readReg (off % 16)
        .ok (r.1.setWidth 32, s.setTimers (s.timers.set (off / 16) r.2))
    | .disc => .ok (discRead off s)
    | .graphics => .ok (graphicsRead off s)

/-- A write to a plain byte array: RAM, scratchpad, stub latch (R84). -/
def storeWrite (pa : Word) (n : Width) (v : Word) (s : State) : State :=
  s.setMem (Memory.write s.mem pa.toNat n v)

/-- A byte write to TTY_SINK also goes to the host's text stream (R89). -/
def ttyTap (pa : Word) (n : Width) (v : Word) (s : State) : State :=
  if pa = Config.ttySink ∧ n = .byte then
    s.setHost { s.host with tty := s.host.tty ++ [v.extractLsb' 0 8] }
  else s

/-- `BusWrite(pa, n, v)` (R81, R84, R86, R89). -/
def busWrite (pa : Word) (n : Width) (v : Word) (s : State) : Out :=
  match owner pa n with
  | none => .fault (writeError pa n v)
  | some r =>
    let off := pa.toNat - r.base
    match r.owner with
    | .ram | .scratchpad => .next (storeWrite pa n v s)
    | .stub => .next (ttyTap pa n v (storeWrite pa n v s))
    | .rom => .fault (writeError pa n v)
    | .intc =>
      if off = 0 then .next (s.setIntc { s.intc with istat := s.intc.istat &&& v.extractLsb' 0 11 })
      else .next (s.setIntc { s.intc with imask := v.extractLsb' 0 11 })
    | .dma =>
      if deviceLatch pa.toNat then .next (storeWrite pa n v s)
      else .next (setDmaEdge (s.dma.writeReg off v) s)
    | .timers =>
      if deviceLatch pa.toNat then .next (storeWrite pa n v s)
      else
        .next (s.setTimers (s.timers.set (off / 16) ((s.timers.get (off / 16)).writeReg (off % 16) v)))
    | .disc => discWrite off (v.extractLsb' 0 8) s
    | .graphics => graphicsWrite off v s

/-- What follows a bus read (R80): its value and the state it left, or its failure. -/
def withRead (pa : Word) (n : Width) (s : State) (k : Word → State → Out) : Out :=
  match busRead pa n s with
  | .ok (v, t) => k v t
  | .error e => .fault e

/-- `MemRead(va, n)`, and what follows it (R90). -/
def memRead (va : Word) (n : Width) (s : State) (k : Word → State → Out) : Out :=
  if misaligned va n then raise (.adEL va) s else withRead (phys va) n s k

/-- `MemWrite(va, n, v)` (R91, R94). -/
def memWrite (va : Word) (n : Width) (v : Word) (s : State) : Out :=
  if misaligned va n then raise (.adES va) s
  else if s.isolated then .next s
  else busWrite (phys va) n v s

end Sys2Proof.Machine
end

