-- ==== Sys2Proof/Machine/LoadStore.lean ====
section
/-!
DEFINITION. Loads and stores (42_loadstore.md), and the two memory instructions of coprocessor 2
(44_system_cop.md R292, R293).
-/

namespace Sys2Proof.Machine

/-- A load: the extended value is posted, the register changes one instruction later (R221). -/
def loadWith (n : Width) (extend : Word → Word) (rt rs : RegNum) (imm : BitVec 16) (s : State) : Out :=
  memRead (ea s rs imm) n s fun v t => .next (t.postLoad rt (extend v))

/-- A store of the low bits of a value (R222). -/
def storeValue (n : Width) (v : Word) (rs : RegNum) (imm : BitVec 16) (s : State) : Out :=
  memWrite (ea s rs imm) n v s

/-- LWL and LWR: the aligned word merged into the current value (R230, R231). -/
def loadMerged (merge : Nat → Word → Word → Word) (rt rs : RegNum) (imm : BitVec 16) (s : State) : Out :=
  withRead (phys (wordBase (ea s rs imm))) .word s fun w t =>
    .next (t.postLoad rt (merge (byteLane (ea s rs imm)) (mergeSource s rt) w))

/-- SWL and SWR: the aligned word read, merged and written; nothing at all with SR.IsC (R236, R237). -/
def storeMerged (merge : Nat → Word → Word → Word) (rt rs : RegNum) (imm : BitVec 16) (s : State) : Out :=
  if s.isolated then .next s
  else
    withRead (phys (wordBase (ea s rs imm))) .word s fun m t =>
      busWrite (phys (wordBase (ea s rs imm))) .word (merge (byteLane (ea s rs imm)) m (s.reg rt)) t

/-- Sign-extend the low 8 bits. -/
def signByte (v : Word) : Word := (v.setWidth 8).signExtend 32
/-- Sign-extend the low 16 bits. -/
def signHalf (v : Word) : Word := (v.setWidth 16).signExtend 32

/-! ## Loads -/

/-- LB (R224). -/
def execLb (rt rs : RegNum) (imm : BitVec 16) (s : State) : Out := loadWith .byte signByte rt rs imm s
/-- LBU (R225). -/
def execLbu (rt rs : RegNum) (imm : BitVec 16) (s : State) : Out := loadWith .byte id rt rs imm s
/-- LH (R226). -/
def execLh (rt rs : RegNum) (imm : BitVec 16) (s : State) : Out := loadWith .half signHalf rt rs imm s
/-- LHU (R227). -/
def execLhu (rt rs : RegNum) (imm : BitVec 16) (s : State) : Out := loadWith .half id rt rs imm s
/-- LW (R228). -/
def execLw (rt rs : RegNum) (imm : BitVec 16) (s : State) : Out := loadWith .word id rt rs imm s
/-- LWL (R230). -/
def execLwl (rt rs : RegNum) (imm : BitVec 16) (s : State) : Out := loadMerged mergeLwl rt rs imm s
/-- LWR (R231). -/
def execLwr (rt rs : RegNum) (imm : BitVec 16) (s : State) : Out := loadMerged mergeLwr rt rs imm s

/-! ## Stores -/

/-- SB (R233). -/
def execSb (rt rs : RegNum) (imm : BitVec 16) (s : State) : Out := storeValue .byte (s.reg rt) rs imm s
/-- SH (R234). -/
def execSh (rt rs : RegNum) (imm : BitVec 16) (s : State) : Out := storeValue .half (s.reg rt) rs imm s
/-- SW (R235). -/
def execSw (rt rs : RegNum) (imm : BitVec 16) (s : State) : Out := storeValue .word (s.reg rt) rs imm s
/-- SWL (R236). -/
def execSwl (rt rs : RegNum) (imm : BitVec 16) (s : State) : Out := storeMerged mergeSwl rt rs imm s
/-- SWR (R237). -/
def execSwr (rt rs : RegNum) (imm : BitVec 16) (s : State) : Out := storeMerged mergeSwr rt rs imm s

/-! ## Coprocessor 2 (44_system_cop.md) -/

/-- LWC2 (R292): at once, no load delay. -/
def execLwc2 (rt rs : RegNum) (imm : BitVec 16) (s : State) : Out :=
  memRead (ea s rs imm) .word s fun v t => .next (t.setGte (t.gte.writeData rt v))

/-- SWC2 (R293). -/
def execSwc2 (rt rs : RegNum) (imm : BitVec 16) (s : State) : Out :=
  storeValue .word (s.gte.readData rt) rs imm s

end Sys2Proof.Machine
end

