-- ==== Sys2Proof/Machine/Alu.lean ====
section
/-!
DEFINITION. Integer arithmetic, logic, comparison and shifts (40_alu.md). Each meaning reads its sources,
computes, and writes its destination at once (R150).
-/

namespace Sys2Proof.Machine

/-- `x[d] <- v` and nothing else (R150). -/
def writeResult (d : RegNum) (v : Word) (s : State) : Out := .next (s.setReg d v)

/-- The result, unless it overflows: then the overflow exception and no write (R151). -/
def writeUnlessOverflow (overflows : Bool) (d : RegNum) (v : Word) (s : State) : Out :=
  if overflows then raise .ov s else writeResult d v s

/-! ## Three-register arithmetic -/

/-- ADD (R152). -/
def execAdd (rd rs rt : RegNum) (s : State) : Out :=
  writeUnlessOverflow (addOverflows (s.reg rs) (s.reg rt)) rd (s.reg rs + s.reg rt) s

/-- ADDU (R153). -/
def execAddu (rd rs rt : RegNum) (s : State) : Out := writeResult rd (s.reg rs + s.reg rt) s

/-- SUB (R154). -/
def execSub (rd rs rt : RegNum) (s : State) : Out :=
  writeUnlessOverflow (subOverflows (s.reg rs) (s.reg rt)) rd (s.reg rs - s.reg rt) s

/-- SUBU (R155). -/
def execSubu (rd rs rt : RegNum) (s : State) : Out := writeResult rd (s.reg rs - s.reg rt) s

/-! ## Logic -/

/-- AND (R156). -/
def execAnd (rd rs rt : RegNum) (s : State) : Out := writeResult rd (s.reg rs &&& s.reg rt) s

/-- OR (R157). -/
def execOr (rd rs rt : RegNum) (s : State) : Out := writeResult rd (s.reg rs ||| s.reg rt) s

/-- XOR (R158). -/
def execXor (rd rs rt : RegNum) (s : State) : Out := writeResult rd (s.reg rs ^^^ s.reg rt) s

/-- NOR (R159). -/
def execNor (rd rs rt : RegNum) (s : State) : Out := writeResult rd (~~~(s.reg rs ||| s.reg rt)) s

/-! ## Comparison -/

/-- SLT (R160). -/
def execSlt (rd rs rt : RegNum) (s : State) : Out :=
  writeResult rd (boolWord ((s.reg rs).slt (s.reg rt))) s

/-- SLTU (R161). -/
def execSltu (rd rs rt : RegNum) (s : State) : Out :=
  writeResult rd (boolWord ((s.reg rs).ult (s.reg rt))) s

/-! ## Immediate forms -/

/-- ADDI (R162). -/
def execAddi (rt rs : RegNum) (imm : BitVec 16) (s : State) : Out :=
  writeUnlessOverflow (addOverflows (s.reg rs) (simm imm)) rt (s.reg rs + simm imm) s

/-- ADDIU (R163). -/
def execAddiu (rt rs : RegNum) (imm : BitVec 16) (s : State) : Out :=
  writeResult rt (s.reg rs + simm imm) s

/-- SLTI (R164). -/
def execSlti (rt rs : RegNum) (imm : BitVec 16) (s : State) : Out :=
  writeResult rt (boolWord ((s.reg rs).slt (simm imm))) s

/-- SLTIU (R165). -/
def execSltiu (rt rs : RegNum) (imm : BitVec 16) (s : State) : Out :=
  writeResult rt (boolWord ((s.reg rs).ult (simm imm))) s

/-- ANDI (R166). -/
def execAndi (rt rs : RegNum) (imm : BitVec 16) (s : State) : Out :=
  writeResult rt (s.reg rs &&& zimm imm) s

/-- ORI (R167). -/
def execOri (rt rs : RegNum) (imm : BitVec 16) (s : State) : Out :=
  writeResult rt (s.reg rs ||| zimm imm) s

/-- XORI (R168). -/
def execXori (rt rs : RegNum) (imm : BitVec 16) (s : State) : Out :=
  writeResult rt (s.reg rs ^^^ zimm imm) s

/-- LUI (R169). -/
def execLui (rt : RegNum) (imm : BitVec 16) (s : State) : Out := writeResult rt (upper imm) s

/-! ## Shifts -/

/-- SLL (R170). -/
def execSll (rd rt : RegNum) (shamt : BitVec 5) (s : State) : Out :=
  writeResult rd (s.reg rt <<< shamt.toNat) s

/-- SRL (R171). -/
def execSrl (rd rt : RegNum) (shamt : BitVec 5) (s : State) : Out :=
  writeResult rd (s.reg rt >>> shamt.toNat) s

/-- SRA (R172). -/
def execSra (rd rt : RegNum) (shamt : BitVec 5) (s : State) : Out :=
  writeResult rd ((s.reg rt).sshiftRight shamt.toNat) s

/-- SLLV (R173). -/
def execSllv (rd rt rs : RegNum) (s : State) : Out :=
  writeResult rd (s.reg rt <<< shiftAmount (s.reg rs)) s

/-- SRLV (R174). -/
def execSrlv (rd rt rs : RegNum) (s : State) : Out :=
  writeResult rd (s.reg rt >>> shiftAmount (s.reg rs)) s

/-- SRAV (R175). -/
def execSrav (rd rt rs : RegNum) (s : State) : Out :=
  writeResult rd ((s.reg rt).sshiftRight (shiftAmount (s.reg rs))) s

end Sys2Proof.Machine
end

