-- ==== Sys2Proof/Machine/MulDiv.lean ====
section
/-!
DEFINITION. Multiply, divide and the result pair (41_muldiv.md). The producers complete inside their step
(R200).
-/

namespace Sys2Proof.Machine

/-- Both halves of the result pair. -/
def writePair (hi lo : Word) (s : State) : Out := .next ((s.setHi hi).setLo lo)

/-- Bits 63:32 and 31:0 of a product (R201, R202). -/
def productPair (p : BitVec 64) : Word × Word := (p.extractLsb' 32 32, p.extractLsb' 0 32)

/-- The corner operands of DIV: divisor 0, or -2^31 by -1 (R204). -/
def isDivCorner (n d : Word) : Bool := d == 0 || (n == 0x80000000#32 && d == 0xFFFFFFFF#32)

/-- DIV_CORNER's default table (R204; log 9), as (remainder, quotient). -/
def divCornerTable (n d : Word) : Word × Word :=
  if d = 0 then (n, if n.getLsbD 31 then 1#32 else 0xFFFFFFFF#32) else (0, 0x80000000#32)

/-- Remainder and quotient of DIV (R203, R204). -/
def divPair (c : DivCorner) (n d : Word) : Word × Word :=
  if isDivCorner n d then
    match c with
    | .table => divCornerTable n d
    | .free => Config.divCorner n d
  else (BitVec.ofInt 32 (n.toInt.tmod d.toInt), BitVec.ofInt 32 (n.toInt.tdiv d.toInt))

/-- Remainder and quotient of DIVU (R205; log 9). -/
def divuPair (c : DivCorner) (n d : Word) : Word × Word :=
  if d = 0 then
    match c with
    | .table => (n, 0xFFFFFFFF#32)
    | .free => Config.divuCorner n d
  else (BitVec.ofNat 32 (n.toNat % d.toNat), BitVec.ofNat 32 (n.toNat / d.toNat))

/-- MULT (R201). -/
def execMult (rs rt : RegNum) (s : State) : Out :=
  let p := productPair (BitVec.ofInt 64 ((s.reg rs).toInt * (s.reg rt).toInt))
  writePair p.1 p.2 s

/-- MULTU (R202). -/
def execMultu (rs rt : RegNum) (s : State) : Out :=
  let p := productPair (BitVec.ofNat 64 ((s.reg rs).toNat * (s.reg rt).toNat))
  writePair p.1 p.2 s

/-- DIV (R204). -/
def execDiv (rs rt : RegNum) (s : State) : Out :=
  let p := divPair s.params.divCorner (s.reg rs) (s.reg rt)
  writePair p.1 p.2 s

/-- DIVU (R205). -/
def execDivu (rs rt : RegNum) (s : State) : Out :=
  let p := divuPair s.params.divCorner (s.reg rs) (s.reg rt)
  writePair p.1 p.2 s

/-- MFHI (R206). -/
def execMfhi (rd : RegNum) (s : State) : Out := writeResult rd s.hi s

/-- MFLO (R207). -/
def execMflo (rd : RegNum) (s : State) : Out := writeResult rd s.lo s

/-- MTHI (R208). -/
def execMthi (rs : RegNum) (s : State) : Out := .next (s.setHi (s.reg rs))

/-- MTLO (R209). -/
def execMtlo (rs : RegNum) (s : State) : Out := .next (s.setLo (s.reg rs))

end Sys2Proof.Machine
end

