-- ==== Sys2Proof/Machine/System.lean ====
section
/-!
DEFINITION. Traps, coprocessor 0, and the register moves of coprocessor 2 (44_system_cop.md). None of them
is checked against SR.KUc or SR.CU0..CU3 (R281).
-/

namespace Sys2Proof.Machine

/-! ## Traps -/

/-- SYSCALL (R282). -/
def execSyscall (_ : BitVec 20) (s : State) : Out := raise .sys s

/-- BREAK (R286). -/
def execBreak (_ : BitVec 20) (s : State) : Out := raise .bp s

/-! ## Coprocessor 0 -/

/-- MFC0 (R283): delayed; a register that does not exist halts the machine. -/
def execMfc0 (rt rd : RegNum) (s : State) : Out :=
  match s.readCop0 rd with
  | some v => .next (s.postLoad rt v)
  | none => .fault (.unknownOpcode .processor s.pc (wordCop 0x10#6 0#5 rt rd))

/-- MTC0 (R284): at once; a register that does not exist halts the machine. -/
def execMtc0 (rt rd : RegNum) (s : State) : Out :=
  match State.writeCop0 s.cop0 rd (s.reg rt) with
  | some c => .next (s.setCop0 c)
  | none => .fault (.unknownOpcode .processor s.pc (wordCop 0x10#6 4#5 rt rd))

/-- RFE (R285). -/
def execRfe (s : State) : Out := .next (returnFromException s)

/-! ## Coprocessor 2 moves -/

/-- MFC2 (R288): delayed. -/
def execMfc2 (rt rd : RegNum) (s : State) : Out := .next (s.postLoad rt (s.gte.readData rd))

/-- CFC2 (R289): delayed. -/
def execCfc2 (rt rd : RegNum) (s : State) : Out := .next (s.postLoad rt (s.gte.readCtrl rd))

/-- MTC2 (R290): at once. -/
def execMtc2 (rt rd : RegNum) (s : State) : Out := .next (s.setGte (s.gte.writeData rd (s.reg rt)))

/-- CTC2 (R291): at once. -/
def execCtc2 (rt rd : RegNum) (s : State) : Out := .next (s.setGte (s.gte.writeCtrl rd (s.reg rt)))

end Sys2Proof.Machine
end

