-- ==== Sys2Proof/Machine/Dispatch.lean ====
section
/-!
DEFINITION. The dispatch: one arm per constructor of Instr, one direct call of its meaning. A processor
instruction runs in the execute stage (10_state.md R40 step 4); a graphics or disc command is what the unit
does when the command is complete at its port.
-/

namespace Sys2Proof.Machine

def exec (i : Instr) (s : State) : Host.Outcome State Fault Refusal :=
  match i with
  | .add rd rs rt => Sys2Proof.Machine.execAdd rd rs rt s
  | .addu rd rs rt => Sys2Proof.Machine.execAddu rd rs rt s
  | .sub rd rs rt => Sys2Proof.Machine.execSub rd rs rt s
  | .subu rd rs rt => Sys2Proof.Machine.execSubu rd rs rt s
  | .and rd rs rt => Sys2Proof.Machine.execAnd rd rs rt s
  | .or rd rs rt => Sys2Proof.Machine.execOr rd rs rt s
  | .xor rd rs rt => Sys2Proof.Machine.execXor rd rs rt s
  | .nor rd rs rt => Sys2Proof.Machine.execNor rd rs rt s
  | .slt rd rs rt => Sys2Proof.Machine.execSlt rd rs rt s
  | .sltu rd rs rt => Sys2Proof.Machine.execSltu rd rs rt s
  | .addi rt rs imm => Sys2Proof.Machine.execAddi rt rs imm s
  | .addiu rt rs imm => Sys2Proof.Machine.execAddiu rt rs imm s
  | .slti rt rs imm => Sys2Proof.Machine.execSlti rt rs imm s
  | .sltiu rt rs imm => Sys2Proof.Machine.execSltiu rt rs imm s
  | .andi rt rs imm => Sys2Proof.Machine.execAndi rt rs imm s
  | .ori rt rs imm => Sys2Proof.Machine.execOri rt rs imm s
  | .xori rt rs imm => Sys2Proof.Machine.execXori rt rs imm s
  | .lui rt imm => Sys2Proof.Machine.execLui rt imm s
  | .sll rd rt shamt => Sys2Proof.Machine.execSll rd rt shamt s
  | .srl rd rt shamt => Sys2Proof.Machine.execSrl rd rt shamt s
  | .sra rd rt shamt => Sys2Proof.Machine.execSra rd rt shamt s
  | .sllv rd rt rs => Sys2Proof.Machine.execSllv rd rt rs s
  | .srlv rd rt rs => Sys2Proof.Machine.execSrlv rd rt rs s
  | .srav rd rt rs => Sys2Proof.Machine.execSrav rd rt rs s
  | .mult rs rt => Sys2Proof.Machine.execMult rs rt s
  | .multu rs rt => Sys2Proof.Machine.execMultu rs rt s
  | .div rs rt => Sys2Proof.Machine.execDiv rs rt s
  | .divu rs rt => Sys2Proof.Machine.execDivu rs rt s
  | .mfhi rd => Sys2Proof.Machine.execMfhi rd s
  | .mflo rd => Sys2Proof.Machine.execMflo rd s
  | .mthi rs => Sys2Proof.Machine.execMthi rs s
  | .mtlo rs => Sys2Proof.Machine.execMtlo rs s
  | .lb rt rs imm => Sys2Proof.Machine.execLb rt rs imm s
  | .lbu rt rs imm => Sys2Proof.Machine.execLbu rt rs imm s
  | .lh rt rs imm => Sys2Proof.Machine.execLh rt rs imm s
  | .lhu rt rs imm => Sys2Proof.Machine.execLhu rt rs imm s
  | .lw rt rs imm => Sys2Proof.Machine.execLw rt rs imm s
  | .lwl rt rs imm => Sys2Proof.Machine.execLwl rt rs imm s
  | .lwr rt rs imm => Sys2Proof.Machine.execLwr rt rs imm s
  | .sb rt rs imm => Sys2Proof.Machine.execSb rt rs imm s
  | .sh rt rs imm => Sys2Proof.Machine.execSh rt rs imm s
  | .sw rt rs imm => Sys2Proof.Machine.execSw rt rs imm s
  | .swl rt rs imm => Sys2Proof.Machine.execSwl rt rs imm s
  | .swr rt rs imm => Sys2Proof.Machine.execSwr rt rs imm s
  | .beq rs rt imm => Sys2Proof.Machine.execBeq rs rt imm s
  | .bne rs rt imm => Sys2Proof.Machine.execBne rs rt imm s
  | .blez rs imm => Sys2Proof.Machine.execBlez rs imm s
  | .bgtz rs imm => Sys2Proof.Machine.execBgtz rs imm s
  | .bltz rs imm => Sys2Proof.Machine.execBltz rs imm s
  | .bgez rs imm => Sys2Proof.Machine.execBgez rs imm s
  | .bltzal rs imm => Sys2Proof.Machine.execBltzal rs imm s
  | .bgezal rs imm => Sys2Proof.Machine.execBgezal rs imm s
  | .j target => Sys2Proof.Machine.execJ target s
  | .jal target => Sys2Proof.Machine.execJal target s
  | .jr rs => Sys2Proof.Machine.execJr rs s
  | .jalr rd rs => Sys2Proof.Machine.execJalr rd rs s
  | .syscall code => Sys2Proof.Machine.execSyscall code s
  | .brk code => Sys2Proof.Machine.execBreak code s
  | .mfc0 rt rd => Sys2Proof.Machine.execMfc0 rt rd s
  | .mtc0 rt rd => Sys2Proof.Machine.execMtc0 rt rd s
  | .rfe => Sys2Proof.Machine.execRfe s
  | .mfc2 rt rd => Sys2Proof.Machine.execMfc2 rt rd s
  | .cfc2 rt rd => Sys2Proof.Machine.execCfc2 rt rd s
  | .mtc2 rt rd => Sys2Proof.Machine.execMtc2 rt rd s
  | .ctc2 rt rd => Sys2Proof.Machine.execCtc2 rt rd s
  | .lwc2 rt rs imm => Sys2Proof.Machine.execLwc2 rt rs imm s
  | .swc2 rt rs imm => Sys2Proof.Machine.execSwc2 rt rs imm s
  | .gteRtps a => Sys2Proof.Machine.execGteRtps a s
  | .gteNclip a => Sys2Proof.Machine.execGteNclip a s
  | .gteOp a => Sys2Proof.Machine.execGteOp a s
  | .gteDpcs a => Sys2Proof.Machine.execGteDpcs a s
  | .gteIntpl a => Sys2Proof.Machine.execGteIntpl a s
  | .gteMvmva a => Sys2Proof.Machine.execGteMvmva a s
  | .gteNcds a => Sys2Proof.Machine.execGteNcds a s
  | .gteCdp a => Sys2Proof.Machine.execGteCdp a s
  | .gteNcdt a => Sys2Proof.Machine.execGteNcdt a s
  | .gteNccs a => Sys2Proof.Machine.execGteNccs a s
  | .gteCc a => Sys2Proof.Machine.execGteCc a s
  | .gteNcs a => Sys2Proof.Machine.execGteNcs a s
  | .gteNct a => Sys2Proof.Machine.execGteNct a s
  | .gteSqr a => Sys2Proof.Machine.execGteSqr a s
  | .gteDcpl a => Sys2Proof.Machine.execGteDcpl a s
  | .gteDpct a => Sys2Proof.Machine.execGteDpct a s
  | .gteAvsz3 a => Sys2Proof.Machine.execGteAvsz3 a s
  | .gteAvsz4 a => Sys2Proof.Machine.execGteAvsz4 a s
  | .gteRtpt a => Sys2Proof.Machine.execGteRtpt a s
  | .gteGpf a => Sys2Proof.Machine.execGteGpf a s
  | .gteGpl a => Sys2Proof.Machine.execGteGpl a s
  | .gteNcct a => Sys2Proof.Machine.execGteNcct a s
  | .gp0Nop arg => Sys2Proof.Machine.execGp0Nop arg s
  | .gp0ClearCache arg => Sys2Proof.Machine.execGp0ClearCache arg s
  | .gp0Fill colour pos size => Sys2Proof.Machine.execGp0Fill colour pos size s
  | .gp0Irq arg => Sys2Proof.Machine.execGp0Irq arg s
  | .gp0Polygon shaded quad textured semi raw colour args => Sys2Proof.Machine.execGp0Polygon shaded quad textured semi raw colour args s
  | .gp0Line shaded ign2 semi ign0 colour args => Sys2Proof.Machine.execGp0Line shaded ign2 semi ign0 colour args s
  | .gp0Rect size textured semi raw colour args => Sys2Proof.Machine.execGp0Rect size textured semi raw colour args s
  | .gp0CopyVram arg src dst size => Sys2Proof.Machine.execGp0CopyVram arg src dst size s
  | .gp0ToVram arg dst size => Sys2Proof.Machine.execGp0ToVram arg dst size s
  | .gp0FromVram arg src size => Sys2Proof.Machine.execGp0FromVram arg src size s
  | .gp0DrawMode arg => Sys2Proof.Machine.execGp0DrawMode arg s
  | .gp0TexWindow arg => Sys2Proof.Machine.execGp0TexWindow arg s
  | .gp0AreaTl arg => Sys2Proof.Machine.execGp0AreaTl arg s
  | .gp0AreaBr arg => Sys2Proof.Machine.execGp0AreaBr arg s
  | .gp0Offset arg => Sys2Proof.Machine.execGp0Offset arg s
  | .gp0MaskBits arg => Sys2Proof.Machine.execGp0MaskBits arg s
  | .gp1Reset arg => Sys2Proof.Machine.execGp1Reset arg s
  | .gp1ResetBuffer arg => Sys2Proof.Machine.execGp1ResetBuffer arg s
  | .gp1AckIrq arg => Sys2Proof.Machine.execGp1AckIrq arg s
  | .gp1DisplayEnable arg => Sys2Proof.Machine.execGp1DisplayEnable arg s
  | .gp1DmaDirection arg => Sys2Proof.Machine.execGp1DmaDirection arg s
  | .gp1DisplayStart arg => Sys2Proof.Machine.execGp1DisplayStart arg s
  | .gp1HRange arg => Sys2Proof.Machine.execGp1HRange arg s
  | .gp1VRange arg => Sys2Proof.Machine.execGp1VRange arg s
  | .gp1DisplayMode arg => Sys2Proof.Machine.execGp1DisplayMode arg s
  | .gp1GetInfo arg => Sys2Proof.Machine.execGp1GetInfo arg s
  | .cdcGetstat => Sys2Proof.Machine.execCdcGetstat s
  | .cdcSetloc => Sys2Proof.Machine.execCdcSetloc s
  | .cdcPlay => Sys2Proof.Machine.execCdcPlay s
  | .cdcReadN => Sys2Proof.Machine.execCdcReadN s
  | .cdcMotorOn => Sys2Proof.Machine.execCdcMotorOn s
  | .cdcStop => Sys2Proof.Machine.execCdcStop s
  | .cdcPause => Sys2Proof.Machine.execCdcPause s
  | .cdcInit => Sys2Proof.Machine.execCdcInit s
  | .cdcMute => Sys2Proof.Machine.execCdcMute s
  | .cdcDemute => Sys2Proof.Machine.execCdcDemute s
  | .cdcSetfilter => Sys2Proof.Machine.execCdcSetfilter s
  | .cdcSetmode => Sys2Proof.Machine.execCdcSetmode s
  | .cdcGetparam => Sys2Proof.Machine.execCdcGetparam s
  | .cdcGetlocL => Sys2Proof.Machine.execCdcGetlocL s
  | .cdcGetlocP => Sys2Proof.Machine.execCdcGetlocP s
  | .cdcGetTN => Sys2Proof.Machine.execCdcGetTN s
  | .cdcGetTD => Sys2Proof.Machine.execCdcGetTD s
  | .cdcSeekL => Sys2Proof.Machine.execCdcSeekL s
  | .cdcSeekP => Sys2Proof.Machine.execCdcSeekP s
  | .cdcTest => Sys2Proof.Machine.execCdcTest s
  | .cdcGetID => Sys2Proof.Machine.execCdcGetID s
  | .cdcReadS => Sys2Proof.Machine.execCdcReadS s
  | .cdcReadTOC => Sys2Proof.Machine.execCdcReadTOC s

end Sys2Proof.Machine
end

