-- ==== Sys2Proof/Machine/Cycle.lean ====
section
/-!
DEFINITION. The processor step (10_state.md R40), the device slots of an invocation (70_reset_and_hazards.md
R680 to R683), the halted machine as the host sees it (10_state.md R60), and how an instruction is placed to
be the next one that runs.
-/

namespace Sys2Proof.Machine

/-! ## The eight stages (10_state.md R40) -/

/-- Step 1: take the latches. -/
def State.latch (s : State) : State :=
  { s with stage := ⟨s.pl, s.pb, false, none, ~~~s.intc.istat⟩, pl := none, pb := none }

/-- Step 2: fetch at the pc through the bus; a misaligned pc is itself EPC and BadVaddr, BD = 0 (R41,
60_exceptions.md R602, 43_branch_jump.md R264; log 13). -/
def fetch (s : State) (k : Word → State → Out) : Out :=
  if misaligned s.pc .word then raiseAt (.adEL s.pc) s.pc false s else withRead (phys s.pc) .word s k

/-- Who reports an undecodable word: the coprocessor for a word that is a coprocessor-2 command, or a
coprocessor-2 word that is no move either (46_gte_commands.md R380; log 23); else the processor (R44). -/
def undecodableComponent (w : Word) : Component :=
  if fOp w = 0x12#6 ∧ (w.getLsbD 25 = true ∨ (fRs w ≠ 0 ∧ fRs w ≠ 2 ∧ fRs w ≠ 4 ∧ fRs w ≠ 6)) then
    .coprocessor
  else .processor

/-- An undecodable word (R44): by the policy, a halt or the reserved-instruction exception. A word of coprocessor 0 that
is none of its instructions (TLBR and the like) is one of them, as 30_encoding.md R140 (d) says, where row U7 of
93_implementation_defined.md names the halt alone: under the policy reserved_instruction that is the model's choice
(log 31). -/
def undecodable (w : Word) (s : State) : Out :=
  match s.params.undecodable with
  | .halt => .fault (.unknownOpcode (undecodableComponent w) s.pc w)
  | .reservedInstruction => raise .ri s

/-- Steps 3 and 4: decode and execute. -/
def runWord (w : Word) (s : State) : Out :=
  match decodeCpu w with
  | .ok i => exec i s
  | .error _ => undecodable w s

/-- The executed instruction wrote the register at once or posted a load of it (R42 (d)). -/
def State.rewrote (s : State) (r : RegNum) : Bool :=
  s.stage.wrote == some r || s.pl.map Prod.fst == some r

/-- Step 5: the previous instruction's load lands (R42). -/
def commitLoad (s : State) : State :=
  match s.stage.dpl with
  | none => s
  | some (r, v) =>
    if s.params.collision = .laterWriteWins ∧ s.rewrote r = true then s else s.setGpr r v

/-- Step 6: the address that would be fetched next (R43). -/
def State.nextPc (s : State) : Word := s.stage.dpb.getD (s.pc + 4#32)

/-- Steps 7 and 8 when no exception was raised: take a pending interrupt, or go on (R45, 60_exceptions.md
R624). -/
def advance (s : State) : State :=
  if s.testedIrqs.interruptPending then enterException .int (if s.pb.isSome then s.pc else s.nextPc) s.pb.isSome s
  else s.setPc s.nextPc

/-- Steps 5 to 8. -/
def finish (s : State) : State :=
  let t := commitLoad s
  (if t.stage.excepted then t else advance t).setStage .idle

/-- One processor step (R40). -/
def processorStep (s : State) : Out :=
  andThen (fetch s.latch runWord) fun t => .next (finish t)

/-! ## The device slots (70_reset_and_hazards.md R680 to R683) -/

/-- The tick inputs of the coming invocation: what the host has supplied, else free values (R682; log 6). -/
def HostSide.input (h : HostSide) : TickInput :=
  match h.ticks with
  | t :: _ => t
  | [] => ⟨Config.dotTicks h.inv, Config.hblankTicks h.inv, Config.vblankTick h.inv⟩

/-- The input has been used; after a vertical-blank tick the machine stands at a frame boundary. -/
def HostSide.consume (h : HostSide) : HostSide :=
  { h with ticks := h.ticks.tail, inv := h.inv + 1, boundary := h.input.b }

/-- The graphics, disc and timer slots (R680, R683). -/
def lateSlots (s : State) : State :=
  let c := cpi s.params
  let i := s.host.input
  let t := timersSlot c i.d i.h i.b (discAdvance c (vblank i.b s))
  t.setHost t.host.consume

/-- The four device slots (R680). -/
def deviceSlots (s : State) : Out := andThen (dmaSlot s) fun t => .next (lateSlots t)

/-- One invocation of a machine that is neither halted nor held (R680). -/
def invocation (s : State) : Out := andThen (processorStep s) deviceSlots

/-! ## After a halt (10_state.md R47, R60) -/

/-- What the host finds after an invocation: a halting instruction leaves the state as it was before, a halting
device slot all that has landed but for its device (`haltedSlot`; log 10), with the record in HALT. -/
def observed (s : State) : State :=
  match processorStep s with
  | .fault e => s.setHalt e.record
  | .refused _ => s
  | .next t =>
    match dmaSlot t with
    | .fault e => (haltedSlot e t).setHalt e.record
    | .refused _ => s
    | .next u => lateSlots u

/-! ## Placing the next instruction (log 15) -/

/-- `sw $2,0x1810($1)`, `sw $2,0x1814($1)`, `sb $2,0x1801($1)`. -/
def storeGp0 : Word := wordI 0x2B#6 1#5 2#5 0x1810#16
def storeGp1 : Word := wordI 0x2B#6 1#5 2#5 0x1814#16
def storeDisc : Word := wordI 0x28#6 1#5 2#5 0x1801#16

/-- A processor word at the fetch address. -/
def State.placeWord (s : State) (w : Word) : State :=
  s.setMem (Memory.write s.mem (phys s.pc).toNat .word w)

/-- A store of `v` to a device port at the fetch address, with its two registers, and stores not
isolated. -/
def State.placeStore (s : State) (code v : Word) : State :=
  (((s.placeWord code).setGpr 1#5 0x1F800000#32).setGpr 2#5 v).setCop0
    { s.cop0 with sr := s.cop0.sr &&& ~~~0x10000#32 }

/-- A GP0 command at the port: its words but the last already there, words after the first zero. -/
def State.placeGp0 (s : State) (w : Word) (n : Nat) : State :=
  if n ≤ 1 then (s.placeStore storeGp0 w).setGpu { s.gpu with mode := .idle }
  else
    (s.placeStore storeGp0 0).setGpu
      { s.gpu with mode := .awaiting 1, buf := w :: List.replicate (n - 2) 0 }

/-- The least parameter count a disc command byte accepts (48_cdrom_commands.md R520). -/
def leastParams (b : Byte) : Nat :=
  match b.toNat with
  | 0x02 => 3
  | 0x0D => 2
  | 0x0E | 0x14 | 0x19 => 1
  | _ => 0

/-- A disc command at its port, with zero parameters. -/
def State.placeDisc (s : State) (b : Byte) : State :=
  (s.placeStore storeDisc (b.setWidth 32)).setCdc
    { s.cdc with ix := 0, param := List.replicate (leastParams b) 0 }

/-- The instruction of a table row's bits, placed so that the next step runs it. -/
def State.place (s : State) (nbits w : Nat) : State :=
  if nbits ≤ 8 then s.placeDisc (BitVec.ofNat 8 w)
  else
    let word := BitVec.ofNat 32 w
    match decodeCpu word with
    | .ok _ => s.placeWord word
    | .error _ =>
      match gp0Words (fCmd word) with
      | some n => s.placeGp0 word n
      | none =>
        match decodeGp1 word with
        | .ok _ => s.placeStore storeGp1 word
        | .error _ => s.placeWord word

end Sys2Proof.Machine
end

