-- ==== Sys2Proof/Machine/Step.lean ====
section
/-!
DEFINITION. One step of the machine is one invocation (70_reset_and_hazards.md R680), and how the host puts an
instruction where the next step fetches it.
-/

namespace Sys2Proof.Machine

/-- One invocation. A halted machine has none (10_state.md R60); a held one has none until the host lets it go
(60_exceptions.md R650). -/
def step (s : State) : Host.Outcome State Fault Refusal :=
  if s.halt.isSome then .fault .halted
  else if s.host.held then .refused .heldByHost
  else invocation s

/-- The instruction of a table row's bits stored where the next step fetches it. -/
def State.withFetchWord (s : State) (nbits w : Nat) : State := s.place nbits w

end Sys2Proof.Machine
end

