-- ==== Sys2Proof/Machine/HostOps.lean ====
section
/-!
DEFINITION. What the host does between invocations (60_exceptions.md R650 to R656, 70_reset_and_hazards.md R675,
R676, R682): holding, inspection, breakpoints, step, continue, creating the machine, loading an executable,
taking the outputs. The wire formats are outside the block (log 22).
-/

namespace Sys2Proof.Machine

/-! ## Holding (R650) -/

/-- The host starts or stops to hold the machine; no machine state changes. -/
def hostHold (held : Bool) (s : State) : State := s.setHost { s.host with held := held }

/-- A debugger connects: "On connection, execution halts" (R654). -/
def hostAttach (s : State) : State := s.setHost { s.host with attached := true, held := true }

/-- A debugger goes away: the hold ends and BRK stays. The spec speaks of connection only (R650 to R656), so what a
disconnection does is the model's choice (log 22). -/
def hostDetach (s : State) : State := s.setHost { s.host with attached := false, held := false }

/-- What the host may do only while it holds the machine (R650, R651; 00_scope.md R7). -/
def whileHeld (f : State → State) (s : State) : State := if s.host.held then f s else s

/-- The host may look: while it holds the machine, or at a frame boundary (R652). -/
def State.inspectable (s : State) : Bool := s.host.held || s.host.boundary

/-- The machine has been created and has had no invocation (70_reset_and_hazards.md R676). -/
def State.justCreated (s : State) : Bool := s.host.inv == 0 && s.halt.isNone

/-! ## Inspection and change (R651) -/

/-- A physical address of the plain memories: RAM, scratchpad, ROM image. -/
def plainByte (a : Nat) : Bool :=
  match ownerOf a with
  | some .ram | some .scratchpad | some .rom => true
  | _ => false

/-- Read a byte of the plain memories while holding; no device side effect. -/
def hostReadByte (s : State) (a : Nat) : Option Byte :=
  if s.host.held && plainByte a then some (Memory.readByte s.mem a) else none

/-- Write a byte range of the plain memories; bytes outside them are not written. -/
def hostWriteBytes (a : Nat) : List Byte → State → State
  | [], s => s
  | b :: bs, s =>
    hostWriteBytes (a + 1) bs (if plainByte a then s.setMem (Memory.writeByte s.mem a b) else s)

/-- Write memory while holding. -/
def hostWriteMemory (a : Nat) (bs : List Byte) (s : State) : State := whileHeld (hostWriteBytes a bs) s

/-- Write a general register, not `x[0]`. -/
def hostWriteReg (r : RegNum) (v : Word) (s : State) : State := whileHeld (·.setGpr r v) s

/-- Write the pc. -/
def hostWritePc (v : Word) (s : State) : State := whileHeld (·.setPc v) s

/-- Write hi. -/
def hostWriteHi (v : Word) (s : State) : State := whileHeld (·.setHi v) s

/-- Write lo. -/
def hostWriteLo (v : Word) (s : State) : State := whileHeld (·.setLo v) s

/-! ## Breakpoints, step, continue (R653, R654) -/

/-- Add an address to BRK, while holding. -/
def hostSetBreak (a : Word) (s : State) : State :=
  whileHeld (fun s => if s.host.brk.contains a then s else s.setHost { s.host with brk := a :: s.host.brk }) s

/-- Take an address out of BRK, while holding. -/
def hostClearBreak (a : Word) (s : State) : State :=
  whileHeld (fun s => s.setHost { s.host with brk := s.host.brk.filter (· != a) }) s

/-- The pc is in BRK, as a full virtual address (R653). -/
def State.atBreak (s : State) : Bool := s.host.brk.contains s.pc

/-- One invocation as the host runs it, the machine not held meanwhile; a halt is left in HALT. -/
def hostInvoke (s : State) : State :=
  if s.halt.isSome then s else observed (hostHold false s)

/-- Step: exactly one invocation, then hold, whatever BRK says of the starting pc (R654). -/
def hostStep (s : State) : State := hostHold true (hostInvoke s)

/-- The invocations of Continue after the first, at most `fuel` of them; the host's own choice to hold is the
end of the fuel (R654). -/
def continueFrom : Nat → State → State
  | 0, s => hostHold true s
  | n + 1, s => if s.halt.isSome || s.atBreak then hostHold true s else continueFrom n (hostInvoke s)

/-- Continue: the first invocation is run without a test of BRK (R654). -/
def hostContinue (fuel : Nat) (s : State) : State :=
  match fuel with
  | 0 => hostHold true s
  | n + 1 => if s.halt.isSome then hostHold true s else continueFrom n (hostInvoke s)

/-! ## Creating the machine (70_reset_and_hazards.md R675, R676) -/

/-- The machine with its firmware image and its disc; an image of another size than ROM_SIZE (10_state.md R64),
and a disc with a sector of another size than SECTOR_RAW (48_cdrom_commands.md R519), are refused. -/
def create (rom : List Byte) (disc : Option (List (List Byte))) : Option State :=
  if rom.length = 0x80000 ∧ Cdc.wellSized disc = true then
    some ((State.reset.setMem (Memory.writeBytes [] 0x1FC00000 rom)).setCdc { Cdc.reset with disc := disc })
  else none

/-- The bytes of an executable in RAM, from an offset that wraps inside it (R676). -/
def loadBytes (off : Nat) : List Byte → Memory → Memory
  | [], m => m
  | b :: bs, m => loadBytes (off + 1) bs (Memory.writeByte m (off % 0x200000) b)

/-- `load_executable(load, entry, sp, bytes)` on a held or just-created machine (R676). -/
def loadExecutable (load entry sp : Word) (bytes : List Byte) (s : State) : State :=
  if s.host.held || s.justCreated then
    let t := s.setMem (loadBytes (phys load).toNat bytes s.mem)
    let u := if sp = 0 then t else t.setGpr 29#5 sp
    { u with pc := entry, pl := none, pb := none }
  else s

/-! ## Inputs and outputs -/

/-- Tick inputs for coming invocations, part of running them (R682). -/
def hostTicks (ts : List TickInput) (s : State) : State :=
  s.setHost { s.host with ticks := s.host.ticks ++ ts }

/-- Any rectangle of VRAM, row by row (47_gpu_commands.md R495, 60_exceptions.md R652). -/
def vramQuery (s : State) (x y w h : Nat) : Option (List (List Half)) :=
  if s.inspectable then
    some ((List.range h).map fun j => (List.range w).map fun i => s.gpu.pixel (x + i) (y + j))
  else none

/-- The display registers: start, horizontal range, vertical range, GPUSTAT (47_gpu_commands.md R495). -/
def displayQuery (s : State) : Option (BitVec 19 × BitVec 24 × BitVec 20 × Word) :=
  if s.inspectable then some (s.gpu.dispStart, s.gpu.hRange, s.gpu.vRange, s.gpu.readStat) else none

/-- The host takes the last closed frame of the draw log (47_gpu_commands.md R494, 60_exceptions.md R652). -/
def takeFrame (s : State) : List LogEntry × State :=
  if s.inspectable then (s.gpu.frame, s.setGpu { s.gpu with frame := [] }) else ([], s)

/-- The host takes the draw log of the current frame (60_exceptions.md R652). -/
def takeLog (s : State) : List LogEntry × State :=
  if s.inspectable then (s.gpu.log, s.setGpu { s.gpu with log := [] }) else ([], s)

/-- The host takes the text stream (20_memory.md R89). That taking it empties it, which 47_gpu_commands.md R494 says of the
draw log only, is the model's choice (log 22). -/
def takeText (s : State) : List Byte × State :=
  if s.host.held then (s.host.tty, s.setHost { s.host with tty := [] }) else ([], s)

end Sys2Proof.Machine
end

