-- ==== Sys2Proof/Safety.lean ====
section
/-!
DEFINITION. What claims are stated in terms of: the machine states between invocations that the rules of the
spec describe, one named property per component, and reading one byte of memory.
-/

namespace Sys2Proof.Machine

/-- The byte a bus read of a plain memory gives. -/
def State.byte (s : State) (a : Nat) : Byte := Memory.readByte s.mem a

/-! ## Frames -/

/-- The components of State, as frames name them. -/
inductive Part where
  | gpr | pc | hi | lo | pl | pb | stage | cop0 | gte | mem | intc | timers | dma | gpu | cdc | halt
  | host | params
  deriving DecidableEq, Repr

/-- Two states agree on a component; on memory also byte by byte. -/
def State.sameOn (s t : State) : Part → Prop
  | .gpr => t.gpr = s.gpr ∧ ∀ r, t.reg r = s.reg r
  | .pc => t.pc = s.pc
  | .hi => t.hi = s.hi
  | .lo => t.lo = s.lo
  | .pl => t.pl = s.pl
  | .pb => t.pb = s.pb
  | .stage => t.stage = s.stage
  | .cop0 => t.cop0 = s.cop0
  | .gte => t.gte = s.gte
  | .mem => t.mem = s.mem ∧ ∀ a, t.byte a = s.byte a
  | .intc => t.intc = s.intc
  | .timers => t.timers = s.timers
  | .dma => t.dma = s.dma
  | .gpu => t.gpu = s.gpu
  | .cdc => t.cdc = s.cdc
  | .halt => t.halt = s.halt
  | .host => t.host = s.host
  | .params => t.params = s.params

/-- From `s` to `t` nothing changes but the components listed. -/
def State.changesOnly (ps : List Part) (s t : State) : Prop := ∀ p, p ∉ ps → s.sameOn t p

/-- The parts of coprocessor 2 that frames name: `inputs` are V0..V2, RGBC, RES1 and LZCS, `control` is every
control register but FLAG. -/
inductive GtePart where
  | inputs | control | otz | ir0 | ir | sxy | sz | rgb | mac0 | mac | flag
  deriving DecidableEq, Repr

/-- Two register files agree on a part. -/
def Gte.sameOn (g h : Gte) : GtePart → Prop
  | .inputs =>
    h.v0 = g.v0 ∧ h.v1 = g.v1 ∧ h.v2 = g.v2 ∧ h.rgbc = g.rgbc ∧ h.res1 = g.res1 ∧ h.lzcs = g.lzcs
  | .control =>
    h.rt = g.rt ∧ h.tr = g.tr ∧ h.llm = g.llm ∧ h.bk = g.bk ∧ h.lcm = g.lcm ∧ h.fc = g.fc ∧
      h.ofx = g.ofx ∧ h.ofy = g.ofy ∧ h.h = g.h ∧ h.dqa = g.dqa ∧ h.dqb = g.dqb ∧ h.zsf3 = g.zsf3 ∧
      h.zsf4 = g.zsf4
  | .otz => h.otz = g.otz
  | .ir0 => h.ir0 = g.ir0
  | .ir => h.ir1 = g.ir1 ∧ h.ir2 = g.ir2 ∧ h.ir3 = g.ir3
  | .sxy => h.sxy0 = g.sxy0 ∧ h.sxy1 = g.sxy1 ∧ h.sxy2 = g.sxy2
  | .sz => h.sz0 = g.sz0 ∧ h.sz1 = g.sz1 ∧ h.sz2 = g.sz2 ∧ h.sz3 = g.sz3
  | .rgb => h.rgb0 = g.rgb0 ∧ h.rgb1 = g.rgb1 ∧ h.rgb2 = g.rgb2
  | .mac0 => h.mac0 = g.mac0
  | .mac => h.mac1 = g.mac1 ∧ h.mac2 = g.mac2 ∧ h.mac3 = g.mac3
  | .flag => h.flag = g.flag

/-- Nothing in coprocessor 2 changes but the parts listed. -/
def Gte.changesOnly (ps : List GtePart) (g h : Gte) : Prop := ∀ p, p ∉ ps → g.sameOn h p

/-- The instruction completes, and changes nothing but the listed parts of coprocessor 2. -/
def completesOnGte (i : Instr) (ps : List GtePart) (s : State) : Prop :=
  ∃ g, exec i s = .next (s.setGte g) ∧ s.gte.changesOnly ps g

/-- The parts of the graphics processor that frames name: `transfer` is the rectangle, the cursor and the
remaining count. -/
inductive GpuPart where
  | mode | buf | transfer | stat | texwin | areaTl | areaBr | offset | rectFlip | dispStart | hRange
  | vRange | readlatch | field | log | frame | vram
  deriving DecidableEq, Repr

/-- Two graphics units agree on a part; on VRAM also pixel by pixel. -/
def Gpu.sameOn (g h : Gpu) : GpuPart → Prop
  | .mode => h.mode = g.mode
  | .buf => h.buf = g.buf
  | .transfer => h.rect = g.rect ∧ h.cx = g.cx ∧ h.cy = g.cy ∧ h.rem = g.rem
  | .stat => h.stat = g.stat
  | .texwin => h.texwin = g.texwin
  | .areaTl => h.areaTl = g.areaTl
  | .areaBr => h.areaBr = g.areaBr
  | .offset => h.offset = g.offset
  | .rectFlip => h.rectFlip = g.rectFlip
  | .dispStart => h.dispStart = g.dispStart
  | .hRange => h.hRange = g.hRange
  | .vRange => h.vRange = g.vRange
  | .readlatch => h.readlatch = g.readlatch
  | .field => h.field = g.field
  | .log => h.log = g.log
  | .frame => h.frame = g.frame
  | .vram => h.vram = g.vram ∧ ∀ x y, h.pixel x y = g.pixel x y

/-- Nothing in the graphics processor changes but the parts listed. -/
def Gpu.changesOnly (ps : List GpuPart) (g h : Gpu) : Prop := ∀ p, p ∉ ps → g.sameOn h p

/-! ## Reading memory and the exceptions -/

/-- The access falls in a plain byte array a program can read: RAM, scratchpad, ROM, stub latch. -/
def plainAt (pa : Word) (n : Width) : Bool :=
  match owner pa n with
  | some r => r.owner == .ram || r.owner == .scratchpad || r.owner == .rom || r.owner == .stub
  | none => false

/-- The access falls in a plain byte array a program can write; a byte at TTY_SINK is set apart. -/
def storableAt (pa : Word) (n : Width) : Bool :=
  match owner pa n with
  | some r =>
    r.owner == .ram || r.owner == .scratchpad ||
      (r.owner == .stub && !(pa == Config.ttySink && n == .byte))
  | none => false

/-- The little-endian word of the four bytes at an address. -/
def State.wordAt (s : State) (a : Nat) : Word :=
  s.byte (a + 3) ++ s.byte (a + 2) ++ s.byte (a + 1) ++ s.byte a

/-- The little-endian halfword of the two bytes at an address. -/
def State.halfAt (s : State) (a : Nat) : Half := s.byte (a + 1) ++ s.byte a

/-- Byte `k` of a word. -/
def byteOf (v : Word) (k : Nat) : Byte := v.extractLsb' (8 * k) 8

/-- `t` is `s` after a store of the listed bytes from address `a` up, and nothing else. -/
def State.stored (s t : State) (a : Nat) (bs : List Byte) : Prop :=
  s.changesOnly [.mem] t ∧ (∀ k, (h : k < bs.length) → t.byte (a + k) = bs[k]) ∧
    ∀ c, (c < a ∨ a + bs.length ≤ c) → t.byte c = s.byte c

/-- `t` is `s` after exception `e` was entered with this EPC and branch-delay bit (60_exceptions.md R610 to
R612, R614). -/
def State.enteredAt (e : Exc) (epc : Word) (bd : Bool) (s t : State) : Prop :=
  t.pc = (if s.cop0.sr.getLsbD 22 then 0xBFC00180#32 else 0x80000080#32) ∧
  t.cop0.epc = epc ∧
  t.cop0.sr.extractLsb' 0 6 = s.cop0.sr.extractLsb' 0 4 ++ 0#2 ∧
  t.cop0.sr.extractLsb' 6 26 = s.cop0.sr.extractLsb' 6 26 ∧
  t.cop0.cause.extractLsb' 2 5 = e.code ∧
  t.cop0.cause.getLsbD 31 = bd ∧
  t.cop0.cause.extractLsb' 28 2 = 0 ∧
  t.cop0.cause &&& 0x4FFFFF83#32 = s.cop0.cause &&& 0x4FFFFF83#32 ∧
  t.cop0.badVaddr = e.badvaddr.getD s.cop0.badVaddr ∧
  t.cop0.bpc = s.cop0.bpc ∧ t.cop0.bda = s.cop0.bda ∧ t.cop0.jumpdest = s.cop0.jumpdest ∧
  t.cop0.dcic = s.cop0.dcic ∧ t.cop0.bdam = s.cop0.bdam ∧ t.cop0.bpcm = s.cop0.bpcm ∧
  t.pb = none ∧ t.stage.excepted = true ∧ t.stage.dpl = s.stage.dpl ∧ t.stage.wrote = s.stage.wrote ∧
  t.stage.young = s.stage.young ∧ s.changesOnly [.pc, .pb, .stage, .cop0] t

/-- `t` is `s` after exception `e` was entered at the instruction at the pc: EPC is its address, or that of the
branch in whose delay slot it stands (10_state.md R40 step 7). -/
def State.entered (e : Exc) (s t : State) : Prop :=
  s.enteredAt e (if s.stage.dpb.isSome then s.pc - 4#32 else s.pc) s.stage.dpb.isSome t

/-! ## Invariants -/

/-- `x[0]` holds 0, not only reads as 0 (10_state.md R20). -/
def State.zeroReg (s : State) : Bool := s.gpr[0] == 0

/-- The memory has its canonical form. -/
def State.memoryCanonical (s : State) : Bool := Memory.wf s.mem

/-- The stored bits of CAUSE are BD, ExcCode and the two software requests (10_state.md R30); I_STAT bits
7..10 read 0 for ever (60_exceptions.md R623). -/
def State.interruptBits (s : State) : Bool :=
  s.cop0.cause &&& ~~~0x8000037C#32 == 0 && s.intc.istat &&& 0x780#11 == 0

/-- Each CHCR holds no more than its stored bits, DICR no more than its own (49_dma.md R562, R568). -/
def State.dmaBits (s : State) : Bool :=
  (List.range 7).all (fun n => (s.dma.chan n).chcr &&& ~~~chcrMask n == 0) &&
    s.dma.dicr &&& ~~~0x7FFF803F#32 == 0

/-- VRAM lists rising indexes below 1024 x 512 (47_gpu_commands.md R430). -/
def State.vramCanonical (s : State) : Bool :=
  Cells.rising s.gpu.vram && s.gpu.vram.all fun c => c.1 < 0x80000

/-- The pixels a transfer has still to move. -/
def Gpu.pixelsLeft (g : Gpu) : Nat := g.rect.w * g.rect.h - (g.cy * g.rect.w + g.cx)

/-- An open transfer: the cursor lies in the rectangle and the remaining words carry the remaining pixels
(47_gpu_commands.md R432, R460, R462). -/
def Gpu.transferring (g : Gpu) : Bool :=
  g.cx < g.rect.w && g.cy < g.rect.h && g.rem == (g.pixelsLeft + 1) / 2

/-- The command machine is in one of its four states: what has been collected is the start of one command,
and `Awaiting(n)` counts the words still missing (47_gpu_commands.md R432, R435). -/
def Gpu.modeSound (g : Gpu) : Bool :=
  match g.mode with
  | .idle => true
  | .awaiting n => 1 ≤ n && gp0Words (fCmd (g.buf.headD 0)) == some (g.buf.length + n) && g.buf != []
  | .toVram | .fromVram => g.transferring

/-- The disc controller's FIFOs stay within their sizes, and the sectors of the disc and of the sector buffer
have SECTOR_RAW bytes (48_cdrom_commands.md R502, R517, R519). -/
def Cdc.bounded (c : Cdc) : Bool :=
  c.param.length ≤ 16 && c.resp.length ≤ 16 && c.data.length ≤ 2340 && (c.hdr.getD []).length ≤ 8 &&
    Cdc.wellSized c.disc && c.sector.all (·.length == Config.sectorRaw)

/-- Between invocations nothing is carried inside the processor step. -/
def State.settled (s : State) : Bool := s.stage == .idle

/-- The machine as the spec's rules describe it between invocations. -/
structure State.Inv (s : State) : Prop where
  settled : s.settled = true
  zeroReg : s.zeroReg = true
  memory : s.memoryCanonical = true
  interrupts : s.interruptBits = true
  dma : s.dmaBits = true
  vram : s.vramCanonical = true
  gpuMode : s.gpu.modeSound = true
  disc : s.cdc.bounded = true

end Sys2Proof.Machine
end

