-- ==== Sys2Proof/Certificates/Slice0/Obligations.lean ====
section
/-!
DEFINITION. The statements for the provers. Each docstring names the rules it rests on.
-/

section
open Sys2Proof Sys2Proof.Machine

/-! ## Reset and general registers -/

/-- 70_reset_and_hazards.md R672 and 10_state.md R65: the first instruction after reset is byte 0 of the ROM,
interrupts are off, BEV selects the ROM vector, and the interrupt controller is clear. -/
def Obligations.ResetProcessor : Prop :=
  State.reset.pc = 0xBFC00000#32 ∧ phys State.reset.pc = 0x1FC00000#32 ∧
    owner (phys State.reset.pc) .word = some ⟨0x1FC00000, 0x80000, .rom⟩ ∧
    State.reset.cop0.sr = 0x00400000#32 ∧ State.reset.vector = 0xBFC00180#32 ∧
    State.reset.intc.istat = 0 ∧ State.reset.intc.imask = 0

/-- The reset values of 10_state.md R62, R63, R67, R68, 47_gpu_commands.md R432, 48_cdrom_commands.md R502 and
60_exceptions.md R660 that the spec gives; the graphics settings are those of 47_gpu_commands.md R481. -/
def Obligations.ResetDevices : Prop :=
  State.reset.pl = none ∧ State.reset.pb = none ∧ State.reset.halt = none ∧ State.reset.reg 0 = 0 ∧
    State.reset.cop0.sr = 0x00400000#32 ∧ State.reset.readCop0 15#5 = some 0x00000002#32 ∧
    State.reset.cop0.cause = 0 ∧ State.reset.cop0.bpc = 0 ∧ State.reset.cop0.bda = 0 ∧
    State.reset.cop0.jumpdest = 0 ∧ State.reset.cop0.dcic = 0 ∧ State.reset.cop0.bdam = 0 ∧
    State.reset.cop0.bpcm = 0 ∧
    (∀ n, n < 3 → State.reset.timers.get n = ⟨0, 0, 0, false, false⟩) ∧ State.reset.timers.pre = 0 ∧
    (∀ n, n < 7 → (State.reset.dma.chan n).madr = 0 ∧ (State.reset.dma.chan n).bcr = 0 ∧
      State.reset.dma.readChcr n = if n = 6 then 2#32 else 0) ∧
    State.reset.dma.dpcr = 0x07654321#32 ∧ State.reset.dma.readDicr = 0 ∧
    State.reset.gpu.mode = .idle ∧ State.reset.gpu.buf = [] ∧ State.reset.gpu.rem = 0 ∧
    State.reset.gpu.readStat = 0x14802000#32 ∧ State.reset.gpu.readlatch = 0 ∧
    State.reset.gpu.field = false ∧ State.reset.gpu.log = [] ∧ State.reset.gpu.texwin = 0 ∧
    State.reset.gpu.areaTl = 0 ∧ State.reset.gpu.areaBr = 0 ∧ State.reset.gpu.offset = 0 ∧
    State.reset.gpu.rectFlip = 0 ∧ State.reset.gpu.dispStart = 0 ∧
    State.reset.gpu.hRange = BitVec.ofNat 24 (0x200 + (0x200 + 2560) * 2 ^ 12) ∧
    State.reset.gpu.vRange = BitVec.ofNat 20 (0x10 + (0x10 + 240) * 2 ^ 10) ∧
    State.reset.cdc.ix = 0 ∧ State.reset.cdc.dmode = .idle ∧ State.reset.cdc.motor = true ∧
    State.reset.cdc.pos = 0 ∧ State.reset.cdc.target = none ∧ State.reset.cdc.cmode = 0 ∧
    State.reset.cdc.file = 0 ∧ State.reset.cdc.chan = 0 ∧ State.reset.cdc.param = [] ∧ State.reset.cdc.resp = [] ∧ State.reset.cdc.data = [] ∧
    State.reset.cdc.sector = none ∧ State.reset.cdc.hdr = none ∧ State.reset.cdc.iflag = 0 ∧
    State.reset.cdc.ien = 0 ∧ State.reset.cdc.queue = [] ∧
    State.reset.host.brk = [] ∧ State.reset.host.attached = false ∧ State.reset.host.tty = [] ∧
    (∀ a, isStub a = true → State.reset.byte a = 0)

/-- The state after reset meets the invariant. The idle record of a step (log 12), the sorted form of memory (log
3) and that of VRAM (log 4) are the model's own. -/
def Obligations.ResetInvariant : Prop := State.reset.Inv

/-- 10_state.md R20, R21: register 0 reads 0 and discards every write; any other register holds what was last
written to it; a register write changes no other register. -/
def Obligations.RegisterWrites : Prop :=
  ∀ (s : State) (d r : RegNum) (v : Word),
    s.reg 0 = 0 ∧
    (s.setReg d v).reg r = (if r = d ∧ d ≠ 0 then v else s.reg r) ∧
    (s.setGpr d v).reg r = (if r = d ∧ d ≠ 0 then v else s.reg r) ∧
    s.changesOnly [.gpr, .stage] (s.setReg d v) ∧ s.changesOnly [.gpr] (s.setGpr d v) ∧
    (d = 0 → (s.setReg d v).gpr = s.gpr ∧ (s.setGpr d v).gpr = s.gpr)

/-! ## Arithmetic, logic, shifts, multiply and divide -/

/-- 40_alu.md R153, R155 to R161, R163 to R169: the results of the instructions that cannot trap, for every destination
(`RegisterWrites` says what `setReg` does, register 0 included). -/
def Obligations.ArithmeticResults : Prop :=
  (∀ (d a b : RegNum) (s : State),
    exec (.addu d a b) s = .next (s.setReg d (BitVec.ofNat 32 ((s.reg a).toNat + (s.reg b).toNat))) ∧
    exec (.subu d a b) s = .next (s.setReg d (BitVec.ofInt 32 ((s.reg a).toInt - (s.reg b).toInt))) ∧
    exec (.and d a b) s = .next (s.setReg d (s.reg a &&& s.reg b)) ∧
    exec (.or d a b) s = .next (s.setReg d (s.reg a ||| s.reg b)) ∧
    exec (.xor d a b) s = .next (s.setReg d (s.reg a ^^^ s.reg b)) ∧
    exec (.nor d a b) s = .next (s.setReg d (~~~(s.reg a ||| s.reg b))) ∧
    exec (.slt d a b) s = .next (s.setReg d (if (s.reg a).toInt < (s.reg b).toInt then 1 else 0)) ∧
    exec (.sltu d a b) s = .next (s.setReg d (if (s.reg a).toNat < (s.reg b).toNat then 1 else 0))) ∧
  ∀ (d a : RegNum) (imm : BitVec 16) (s : State),
    exec (.addiu d a imm) s = .next (s.setReg d (BitVec.ofInt 32 ((s.reg a).toInt + imm.toInt))) ∧
    exec (.slti d a imm) s = .next (s.setReg d (if (s.reg a).toInt < imm.toInt then 1 else 0)) ∧
    exec (.sltiu d a imm) s =
      .next (s.setReg d (if (s.reg a).toNat < (imm.signExtend 32).toNat then 1 else 0)) ∧
    exec (.andi d a imm) s = .next (s.setReg d (s.reg a &&& imm.setWidth 32)) ∧
    exec (.ori d a imm) s = .next (s.setReg d (s.reg a ||| imm.setWidth 32)) ∧
    exec (.xori d a imm) s = .next (s.setReg d (s.reg a ^^^ imm.setWidth 32)) ∧
    exec (.lui d imm) s = .next (s.setReg d (BitVec.ofNat 32 (imm.toNat * 2 ^ 16)))

/-- 40_alu.md R170 to R175: shifts as exact multiplication and floor division, the amount of the variable forms
taken modulo 32. -/
def Obligations.ShiftResults : Prop :=
  ∀ (d b a : RegNum) (n : BitVec 5) (s : State),
    exec (.sll d b n) s = .next (s.setReg d (BitVec.ofNat 32 ((s.reg b).toNat * 2 ^ n.toNat))) ∧
    exec (.srl d b n) s = .next (s.setReg d (BitVec.ofNat 32 ((s.reg b).toNat / 2 ^ n.toNat))) ∧
    exec (.sra d b n) s = .next (s.setReg d (BitVec.ofInt 32 ((s.reg b).toInt / 2 ^ n.toNat))) ∧
    exec (.sllv d b a) s =
      .next (s.setReg d (BitVec.ofNat 32 ((s.reg b).toNat * 2 ^ ((s.reg a).toNat % 32)))) ∧
    exec (.srlv d b a) s =
      .next (s.setReg d (BitVec.ofNat 32 ((s.reg b).toNat / 2 ^ ((s.reg a).toNat % 32)))) ∧
    exec (.srav d b a) s =
      .next (s.setReg d (BitVec.ofInt 32 ((s.reg b).toInt / 2 ^ ((s.reg a).toNat % 32))))

/-- 60_exceptions.md R607 with 40_alu.md R152, R154, R162: ADD, SUB and ADDI write the exact signed result when
it fits in 32 bits; otherwise they enter the overflow exception and write no register. -/
def Obligations.TrappingArithmetic : Prop :=
  ∀ (d a b : RegNum) (imm : BitVec 16) (s : State),
    ∀ p ∈ [(Instr.add d a b, (s.reg a).toInt + (s.reg b).toInt),
        (Instr.sub d a b, (s.reg a).toInt - (s.reg b).toInt),
        (Instr.addi d a imm, (s.reg a).toInt + imm.toInt)],
      if -(2 ^ 31) ≤ p.2 ∧ p.2 ≤ 2 ^ 31 - 1 then
        exec p.1 s = .next (s.setReg d (BitVec.ofInt 32 p.2))
      else ∃ t, exec p.1 s = .next t ∧ s.entered .ov t

/-- 41_muldiv.md R201, R202, R206 to R209: the result pair holds the exact product; the four moves read and write
it. -/
def Obligations.ResultPair : Prop :=
  (∀ (a b : RegNum) (s : State),
    (∃ t, exec (.mult a b) s = .next t ∧ (t.hi ++ t.lo).toInt = (s.reg a).toInt * (s.reg b).toInt ∧
      s.changesOnly [.hi, .lo] t) ∧
    ∃ t, exec (.multu a b) s = .next t ∧ (t.hi ++ t.lo).toNat = (s.reg a).toNat * (s.reg b).toNat ∧
      s.changesOnly [.hi, .lo] t) ∧
  ∀ (r : RegNum) (s : State),
    exec (.mfhi r) s = .next (s.setReg r s.hi) ∧ exec (.mflo r) s = .next (s.setReg r s.lo) ∧
    (∃ t, exec (.mthi r) s = .next t ∧ t.hi = s.reg r ∧ s.changesOnly [.hi] t) ∧
    ∃ t, exec (.mtlo r) s = .next t ∧ t.lo = s.reg r ∧ s.changesOnly [.lo] t

/-- 41_muldiv.md R203 to R205. Outside the corners quotient and remainder satisfy the division law, the remainder of
DIV with the sign of the dividend. The corners never trap, and with DIV_CORNER at its default give the
table. -/
def Obligations.DivideResults : Prop :=
  (∀ (a b : RegNum) (s : State), s.reg b ≠ 0 →
    (¬(s.reg a = 0x80000000#32 ∧ s.reg b = 0xFFFFFFFF#32) →
      ∃ t, exec (.div a b) s = .next t ∧
        (s.reg a).toInt = t.lo.toInt * (s.reg b).toInt + t.hi.toInt ∧
        t.hi.toInt.natAbs < (s.reg b).toInt.natAbs ∧ 0 ≤ t.hi.toInt * (s.reg a).toInt ∧
        s.changesOnly [.hi, .lo] t) ∧
    ∃ t, exec (.divu a b) s = .next t ∧
      (s.reg a).toNat = t.lo.toNat * (s.reg b).toNat + t.hi.toNat ∧ t.hi.toNat < (s.reg b).toNat ∧
      s.changesOnly [.hi, .lo] t) ∧
  ∀ (a b : RegNum) (s : State),
    (s.reg b = 0 →
      ∃ t u, exec (.div a b) s = .next t ∧ exec (.divu a b) s = .next u ∧
        s.changesOnly [.hi, .lo] t ∧ s.changesOnly [.hi, .lo] u ∧
        (s.params.divCorner = .table →
          t.hi = s.reg a ∧ u.hi = s.reg a ∧ u.lo = 0xFFFFFFFF#32 ∧
            t.lo = if 0 ≤ (s.reg a).toInt then 0xFFFFFFFF#32 else 1#32)) ∧
    (s.reg a = 0x80000000#32 → s.reg b = 0xFFFFFFFF#32 →
      ∃ t, exec (.div a b) s = .next t ∧ s.changesOnly [.hi, .lo] t ∧
        (s.params.divCorner = .table → t.lo = 0x80000000#32 ∧ t.hi = 0))

/-! ## Memory -/

/-- 20_memory.md R72: the segment map, and the three views of RAM and of ROM. -/
def Obligations.SegmentMap : Prop :=
  (∀ va : Word, va.toNat < 0x80000000 → phys va = va) ∧
  (∀ va : Word, 0x80000000 ≤ va.toNat → va.toNat < 0xA0000000 →
    phys va = va &&& 0x7FFFFFFF#32 ∧ phys va = va &&& 0x1FFFFFFF#32) ∧
  (∀ va : Word, 0xA0000000 ≤ va.toNat → va.toNat < 0xC0000000 → phys va = va &&& 0x1FFFFFFF#32) ∧
  (∀ va : Word, 0xC0000000 ≤ va.toNat → phys va = va) ∧
  ∀ a : Word, a.toNat < 0x20000000 →
    phys a = a ∧ phys (a ||| 0x80000000#32) = a ∧ phys (a ||| 0xA0000000#32) = a

/-- 20_memory.md R70, R84, R87: what is written to a plain byte array is read back from it, at every width, and
a store changes no byte outside its own. -/
def Obligations.ReadAfterWrite : Prop :=
  ∀ (pa v : Word) (n : Width) (s : State), s.memoryCanonical = true → storableAt pa n = true →
    ∃ t, busWrite pa n v s = .next t ∧ busRead pa n t = .ok (lowBits n v, t) ∧
      s.stored t pa.toNat ((List.range n.bytes).map (byteOf v))

/-- 42_loadstore.md R221, R224 to R228 from a plain byte array: the loaded value is posted for the next
instruction and nothing else changes. -/
def Obligations.PlainLoads : Prop :=
  ∀ (d a : RegNum) (imm : BitVec 16) (s : State),
    let ea := s.reg a + imm.signExtend 32
    let pa := phys ea
    (plainAt pa .byte = true →
      exec (.lb d a imm) s = .next (s.postLoad d ((s.byte pa.toNat).signExtend 32)) ∧
      exec (.lbu d a imm) s = .next (s.postLoad d ((s.byte pa.toNat).setWidth 32))) ∧
    (plainAt pa .half = true → ea.toNat % 2 = 0 →
      exec (.lh d a imm) s = .next (s.postLoad d ((s.halfAt pa.toNat).signExtend 32)) ∧
      exec (.lhu d a imm) s = .next (s.postLoad d ((s.halfAt pa.toNat).setWidth 32))) ∧
    (plainAt pa .word = true → ea.toNat % 4 = 0 →
      exec (.lw d a imm) s = .next (s.postLoad d (s.wordAt pa.toNat)) ∧
      exec (.lwc2 d a imm) s = .next (s.setGte (s.gte.writeData d (s.wordAt pa.toNat))))

/-- 42_loadstore.md R221 to R223, R236, R237, 20_memory.md R91, R94: the loads and stores at every address, devices
included. An aligned load posts what the bus gives, in the state the read leaves, and where the bus fails the machine
halts; an aligned store is the bus write; with SR.IsC = 1 it changes nothing. -/
def Obligations.BusAccess : Prop :=
  (∀ (d a : RegNum) (imm : BitVec 16) (s : State),
    let ea := s.reg a + imm.signExtend 32
    (∀ v u, busRead (phys ea) .byte s = .ok (v, u) →
      exec (.lb d a imm) s = .next (u.postLoad d ((v.setWidth 8).signExtend 32)) ∧
      exec (.lbu d a imm) s = .next (u.postLoad d v)) ∧
    (∀ e, busRead (phys ea) .byte s = .error e →
      exec (.lb d a imm) s = .fault e ∧ exec (.lbu d a imm) s = .fault e) ∧
    (ea.toNat % 2 = 0 →
      (∀ v u, busRead (phys ea) .half s = .ok (v, u) →
        exec (.lh d a imm) s = .next (u.postLoad d ((v.setWidth 16).signExtend 32)) ∧
        exec (.lhu d a imm) s = .next (u.postLoad d v)) ∧
      ∀ e, busRead (phys ea) .half s = .error e →
        exec (.lh d a imm) s = .fault e ∧ exec (.lhu d a imm) s = .fault e) ∧
    (ea.toNat % 4 = 0 →
      (∀ v u, busRead (phys ea) .word s = .ok (v, u) →
        exec (.lw d a imm) s = .next (u.postLoad d v) ∧
        exec (.lwc2 d a imm) s = .next (u.setGte (u.gte.writeData d v))) ∧
      ∀ e, busRead (phys ea) .word s = .error e →
        exec (.lw d a imm) s = .fault e ∧ exec (.lwc2 d a imm) s = .fault e)) ∧
  ∀ (d a : RegNum) (imm : BitVec 16) (s : State),
    let ea := s.reg a + imm.signExtend 32
    (s.isolated = false →
      exec (.sb d a imm) s = busWrite (phys ea) .byte (s.reg d) s ∧
      (ea.toNat % 2 = 0 → exec (.sh d a imm) s = busWrite (phys ea) .half (s.reg d) s) ∧
      (ea.toNat % 4 = 0 →
        exec (.sw d a imm) s = busWrite (phys ea) .word (s.reg d) s ∧
        exec (.swc2 d a imm) s = busWrite (phys ea) .word (s.gte.readData d) s)) ∧
    (s.isolated = true →
      exec (.sb d a imm) s = .next s ∧ exec (.swl d a imm) s = .next s ∧
      exec (.swr d a imm) s = .next s ∧
      (ea.toNat % 2 = 0 → exec (.sh d a imm) s = .next s) ∧
      (ea.toNat % 4 = 0 → exec (.sw d a imm) s = .next s ∧ exec (.swc2 d a imm) s = .next s))

/-- 42_loadstore.md R230 to R232: LWL and LWR at every alignment: which bytes of the aligned word go where, over
the pending load of the same register or the register. Byte `k` counts from the low end. -/
def Obligations.UnalignedLoads : Prop :=
  ∀ (d a : RegNum) (imm : BitVec 16) (s u : State) (w : Word),
    let ea := s.reg a + imm.signExtend 32
    let k := ea.toNat % 4
    let cur := match s.stage.dpl with
      | some (r, v) => if r = d then v else s.reg d
      | none => s.reg d
    busRead (phys (ea &&& 0xFFFFFFFC#32)) .word s = .ok (w, u) →
      (∃ v, exec (.lwl d a imm) s = .next (u.postLoad d v) ∧
        ∀ j, j < 4 → byteOf v j = if 3 - k ≤ j then byteOf w (j + k - 3) else byteOf cur j) ∧
      ∃ v, exec (.lwr d a imm) s = .next (u.postLoad d v) ∧
        ∀ j, j < 4 → byteOf v j = if j + k ≤ 3 then byteOf w (j + k) else byteOf cur j

/-- 42_loadstore.md R230 to R232, the pair: LWL at `x[1] + 3` and then LWR at `x[1]` post the unaligned word at
`x[1]`, whatever its alignment, wherever the two aligned words are plain memory. -/
def Obligations.UnalignedPair : Prop :=
  ∀ (d a : RegNum) (s : State) (A : Nat),
    (s.reg a).toNat = A → A + 7 < 0x200000 →
    ∃ t u v, exec (.lwl d a 3#16) s = .next t ∧ t.pl = some (d, v) ∧
      exec (.lwr d a 0#16) t.latch = .next u ∧ u.pl = some (d, s.wordAt A)

/-- 42_loadstore.md R233 to R235 and 44_system_cop.md R293 into a plain byte array: the bytes stored, and every
other byte as before. 20_memory.md R89: a byte stored at TTY_SINK is stored there and appended to the host's text
stream. -/
def Obligations.PlainStores : Prop :=
  ∀ (d a : RegNum) (imm : BitVec 16) (s : State),
    let ea := s.reg a + imm.signExtend 32
    let pa := phys ea
    s.memoryCanonical = true → s.isolated = false →
    (storableAt pa .byte = true →
      ∃ t, exec (.sb d a imm) s = .next t ∧ s.stored t pa.toNat [byteOf (s.reg d) 0]) ∧
    (storableAt pa .half = true → ea.toNat % 2 = 0 →
      ∃ t, exec (.sh d a imm) s = .next t ∧
        s.stored t pa.toNat [byteOf (s.reg d) 0, byteOf (s.reg d) 1]) ∧
    (storableAt pa .word = true → ea.toNat % 4 = 0 →
      (∃ t, exec (.sw d a imm) s = .next t ∧
        s.stored t pa.toNat [byteOf (s.reg d) 0, byteOf (s.reg d) 1, byteOf (s.reg d) 2,
          byteOf (s.reg d) 3]) ∧
      ∃ t, exec (.swc2 d a imm) s = .next t ∧
        s.stored t pa.toNat [byteOf (s.gte.readData d) 0, byteOf (s.gte.readData d) 1,
          byteOf (s.gte.readData d) 2, byteOf (s.gte.readData d) 3]) ∧
    (pa = 0x1F802023#32 →
      ∃ t, exec (.sb d a imm) s = .next t ∧ s.changesOnly [.mem, .host] t ∧
        t.host = { s.host with tty := s.host.tty ++ [byteOf (s.reg d) 0] } ∧
        t.byte 0x1F802023 = byteOf (s.reg d) 0 ∧ ∀ c, c ≠ 0x1F802023 → t.byte c = s.byte c)

/-- 42_loadstore.md R236, R237: SWL stores the high `k + 1` bytes of the register at the addressed byte and
below, SWR the low `4 - k` bytes at the addressed byte and above; every other byte is as before. -/
def Obligations.UnalignedStores : Prop :=
  ∀ (d a : RegNum) (imm : BitVec 16) (s : State),
    let ea := s.reg a + imm.signExtend 32
    let k := ea.toNat % 4
    let base := phys (ea &&& 0xFFFFFFFC#32)
    s.memoryCanonical = true → s.isolated = false → storableAt base .word = true →
    (∃ t, exec (.swl d a imm) s = .next t ∧ s.changesOnly [.mem] t ∧
      ∀ c, t.byte c =
        if base.toNat ≤ c ∧ c ≤ base.toNat + k then byteOf (s.reg d) (c - base.toNat + 3 - k)
        else s.byte c) ∧
    ∃ t, exec (.swr d a imm) s = .next t ∧ s.changesOnly [.mem] t ∧
      ∀ c, t.byte c =
        if base.toNat + k ≤ c ∧ c < base.toNat + 4 then byteOf (s.reg d) (c - base.toNat - k)
        else s.byte c

/-- 60_exceptions.md R603, and for loads R602 with 20_memory.md R90 to R92: a misaligned access enters the
address-error exception with the effective address in BadVaddr and touches nothing on the bus, whatever the address map
and SR.IsC say. SWL and SWR never raise it. -/
def Obligations.MisalignedAccess : Prop :=
  ∀ (d a : RegNum) (imm : BitVec 16) (s : State),
    let ea := s.reg a + imm.signExtend 32
    (ea.toNat % 2 ≠ 0 →
      (∀ i ∈ [Instr.lh d a imm, .lhu d a imm], ∃ t, exec i s = .next t ∧ s.entered (.adEL ea) t) ∧
      ∃ t, exec (.sh d a imm) s = .next t ∧ s.entered (.adES ea) t) ∧
    (ea.toNat % 4 ≠ 0 →
      (∀ i ∈ [Instr.lw d a imm, .lwc2 d a imm], ∃ t, exec i s = .next t ∧ s.entered (.adEL ea) t) ∧
      ∀ i ∈ [Instr.sw d a imm, .swc2 d a imm], ∃ t, exec i s = .next t ∧ s.entered (.adES ea) t) ∧
    ∀ i ∈ [Instr.swl d a imm, .swr d a imm], ∀ t, exec i s = .next t →
      t.cop0 = s.cop0 ∧ t.pc = s.pc ∧ t.stage = s.stage

/-- 20_memory.md R80 to R82, R86: an access no row of the map owns at that width, and a write to ROM, halt with
BusError. R83: no two rows of the map own one address. -/
def Obligations.BusErrors : Prop :=
  (∀ (pa v : Word) (n : Width) (s : State),
    (owner pa n = none →
      busRead pa n s = .error (.busError .bus pa (BitVec.ofNat 32 n.bytes)) ∧
      busWrite pa n v s = .fault (.busError .bus pa (lowBits n v))) ∧
    (0x1FC00000 ≤ pa.toNat → pa.toNat + n.bytes ≤ 0x1FC80000 →
      busWrite pa n v s = .fault (.busError .bus pa (lowBits n v)))) ∧
  ∀ (r q : Region) (a n m : Nat), r ∈ addressMap → q ∈ addressMap → 0 < n → 0 < m →
    r.holds a n = true → q.holds a m = true → r = q

/-- 60_exceptions.md R622: reading, acknowledging and masking at the interrupt controller, at both widths. R661, R664,
R665: the registers of the three timers at both widths; a mode write clears the count, a mode read clears the two
reached bits. 49_dma.md R562, R567, R568: the registers of the seven channels, DPCR, and DICR with its computed bit 31
and the rise that sets I_STAT bit 3. 48_cdrom_commands.md R503 to R509: the disc ports. -/
def Obligations.DeviceRegisters : Prop :=
  (∀ (v : Word) (n : Width) (s : State), n ≠ .byte →
    busRead 0x1F801070#32 n s = .ok (s.intc.istat.setWidth 32, s) ∧
    busRead 0x1F801074#32 n s = .ok (s.intc.imask.setWidth 32, s) ∧
    (∃ t, busWrite 0x1F801070#32 n v s = .next t ∧ s.changesOnly [.intc] t ∧
      t.intc.istat = s.intc.istat &&& v.extractLsb' 0 11 ∧ t.intc.imask = s.intc.imask) ∧
    ∃ t, busWrite 0x1F801074#32 n v s = .next t ∧ s.changesOnly [.intc] t ∧
      t.intc.istat = s.intc.istat ∧ t.intc.imask = v.extractLsb' 0 11) ∧
  (∀ (k : Nat) (w : Width) (v : Word) (s : State), k < 3 → w ≠ .byte →
    let t := s.timers.get k
    let at' (off : Nat) : Word := BitVec.ofNat 32 (0x1F801100 + 0x10 * k + off)
    busRead (at' 0) w s = .ok (t.count.setWidth 32, s.setTimers (s.timers.set k t)) ∧
    busRead (at' 8) w s = .ok (t.target.setWidth 32, s.setTimers (s.timers.set k t)) ∧
    busRead (at' 4) w s =
      .ok (t.mode.setWidth 32, s.setTimers (s.timers.set k { t with mode := t.mode &&& 0x7FF#13 })) ∧
    busWrite (at' 0) w v s =
      .next (s.setTimers (s.timers.set k { t with count := v.extractLsb' 0 16 })) ∧
    busWrite (at' 8) w v s =
      .next (s.setTimers (s.timers.set k { t with target := v.extractLsb' 0 16 })) ∧
    ∃ m, busWrite (at' 4) w v s =
        .next (s.setTimers (s.timers.set k { t with mode := m, count := 0, fired := false, gate := false })) ∧
      m.extractLsb' 0 10 = v.extractLsb' 0 10 ∧ m.getLsbD 10 = true ∧
      m.extractLsb' 11 2 = t.mode.extractLsb' 11 2) ∧
  (∀ (n : Nat) (v : Word) (s : State), n < 7 →
    let c := s.dma.chan n
    let at' (off : Nat) : Word := BitVec.ofNat 32 (0x1F801080 + 0x10 * n + off)
    let sets (off : Nat) (c' : Channel) :=
      busWrite (at' off) .word v s = .next (s.setDma (s.dma.setChan n c'))
    busRead (at' 0) .word s = .ok (c.madr.setWidth 32, s) ∧ busRead (at' 4) .word s = .ok (c.bcr, s) ∧
    busRead (at' 8) .word s = .ok (if n = 6 then c.chcr ||| 2#32 else c.chcr, s) ∧
    sets 0 { c with madr := v.extractLsb' 0 24 } ∧ sets 4 { c with bcr := v } ∧
    sets 8 { c with chcr := v &&& (if n = 6 then 0x51000000#32 else 0x71770703#32) }) ∧
  (∀ (v : Word) (s : State),
    let master (w : Word) : Bool :=
      w.getLsbD 15 || (w.getLsbD 23 && (w.extractLsb' 16 7 &&& w.extractLsb' 24 7) != 0#7)
    busRead 0x1F8010F0#32 .word s = .ok (s.dma.dpcr, s) ∧
    busWrite 0x1F8010F0#32 .word v s = .next (s.setDma { s.dma with dpcr := v }) ∧
    busRead 0x1F8010F4#32 .word s =
      .ok (s.dma.dicr ||| (if master s.dma.dicr then 0x80000000#32 else 0), s) ∧
    ∃ t d, busWrite 0x1F8010F4#32 .word v s = .next t ∧ s.changesOnly [.dma, .intc] t ∧
      t.dma = { s.dma with dicr := d } ∧
      d = (v &&& 0x00FF803F#32) ||| (s.dma.dicr &&& ~~~v &&& 0x7F000000#32) ∧
      t.intc.imask = s.intc.imask ∧
      t.intc.istat =
        if master d = true ∧ master s.dma.dicr = false then s.intc.istat ||| 8#11 else s.intc.istat) ∧
  ∀ (v : Word) (s : State),
    let c := s.cdc
    let b : Byte := v.extractLsb' 0 8
    let reads (off : Nat) (x : Byte) (c' : Cdc) :=
      busRead (BitVec.ofNat 32 (0x1F801800 + off)) .byte s = .ok (x.setWidth 32, s.setCdc c')
    let writes (off : Nat) (o : Out) := busWrite (BitVec.ofNat 32 (0x1F801800 + off)) .byte v s = o
    let sets (off : Nat) (c' : Cdc) := writes off (.next (s.setCdc c'))
    (∃ x, reads 0 x c ∧ x.extractLsb' 0 2 = c.ix ∧ x.getLsbD 2 = false ∧
      x.getLsbD 3 = decide (c.param = []) ∧ x.getLsbD 4 = decide (c.param.length < 16) ∧
      x.getLsbD 5 = decide (c.resp ≠ []) ∧ x.getLsbD 6 = decide (c.data ≠ []) ∧
      (x.getLsbD 7 = true ↔ ∃ e ∈ c.queue, (∃ cmd ps, e.kind = .ack cmd ps) ∨ ∃ k, e.kind = .err k)) ∧
    reads 1 (c.resp.headD 0) { c with resp := c.resp.tail } ∧
    reads 2 (c.data.headD 0) { c with data := c.data.tail } ∧
    reads 3 (0xE0#8 ||| (if c.ix = 1 ∨ c.ix = 3 then c.iflag.setWidth 8 else c.ien.setWidth 8)) c ∧
    sets 0 { c with ix := v.extractLsb' 0 2 } ∧
    (c.ix = 0 →
      writes 1 (discCommandByte b s) ∧
      sets 2 { c with param := if c.param.length < 16 then c.param ++ [b] else c.param } ∧
      (b.getLsbD 7 = false → sets 3 { c with data := [] }) ∧
      (b.getLsbD 7 = true → ∀ sec, c.sector = some sec →
        sets 3 { c with
          data :=
            if c.data ≠ [] then c.data
            else if c.cmode.getLsbD 5 then (sec.drop 12).take 0x924 else (sec.drop 24).take 0x800 }) ∧
      (b.getLsbD 7 = true → c.sector = none → sets 3 c)) ∧
    (c.ix = 1 →
      sets 2 { c with ien := v.extractLsb' 0 5 } ∧
      sets 3 { c with
        iflag := c.iflag &&& ~~~v.extractLsb' 0 3, param := if b.getLsbD 6 then [] else c.param })

/-! ## Branches and jumps -/

/-- 43_branch_jump.md R250 to R264: a branch is posted exactly when its condition holds, and nothing else changes.
Links are written at once, taken or not, after the sources were read; the target of J and JAL stays in the region
of the delay slot. -/
def Obligations.BranchesAndJumps : Prop :=
  (∀ (a b : RegNum) (imm : BitVec 16) (s : State),
    let target := BitVec.ofInt 32 ((s.pc.toNat : Int) + 4 + 4 * imm.toInt)
    exec (.beq a b imm) s = .next (if s.reg a = s.reg b then s.postBranch target else s) ∧
    exec (.bne a b imm) s = .next (if s.reg a = s.reg b then s else s.postBranch target) ∧
    exec (.blez a imm) s = .next (if (s.reg a).toInt ≤ 0 then s.postBranch target else s) ∧
    exec (.bgtz a imm) s = .next (if 0 < (s.reg a).toInt then s.postBranch target else s) ∧
    exec (.bltz a imm) s = .next (if (s.reg a).toInt < 0 then s.postBranch target else s) ∧
    exec (.bgez a imm) s = .next (if 0 ≤ (s.reg a).toInt then s.postBranch target else s)) ∧
  ∀ (d a : RegNum) (imm : BitVec 16) (t26 : BitVec 26) (s : State),
    let target := BitVec.ofInt 32 ((s.pc.toNat : Int) + 4 + 4 * imm.toInt)
    let region := BitVec.ofNat 32 ((s.pc + 4#32).toNat / 2 ^ 28 * 2 ^ 28 + t26.toNat * 4)
    let linked := s.setReg 31#5 (s.pc + 8#32)
    exec (.bltzal a imm) s =
      .next (if (s.reg a).toInt < 0 then linked.postBranch target else linked) ∧
    exec (.bgezal a imm) s =
      .next (if 0 ≤ (s.reg a).toInt then linked.postBranch target else linked) ∧
    exec (.j t26) s = .next (s.postBranch region) ∧
    exec (.jal t26) s = .next (linked.postBranch region) ∧
    exec (.jr a) s = .next (s.postBranch (s.reg a)) ∧
    exec (.jalr d a) s = .next ((s.setReg d (s.pc + 8#32)).postBranch (s.reg a))

/-! ## Exceptions and coprocessor 0 -/

/-- 44_system_cop.md R282, R286, 60_exceptions.md R604, R605: SYSCALL and BREAK always trap. -/
def Obligations.Traps : Prop :=
  ∀ (c : BitVec 20) (s : State),
    (∃ t, exec (.syscall c) s = .next t ∧ s.entered .sys t) ∧
    ∃ t, exec (.brk c) s = .next t ∧ s.entered .bp t

/-- 44_system_cop.md R283, R284, 10_state.md R28, R30: MFC0 posts the register, CAUSE with the hardware interrupt line
live. MTC0 writes the latches and SR whole, of CAUSE only the two software requests, of BadVaddr, EPC and PRID
nothing. A number that names no register halts. -/
def Obligations.Cop0Moves : Prop :=
  (∀ (d r : RegNum) (s : State),
    let post v := Host.Outcome.next (s.postLoad d v)
    exec (.mfc0 d 3#5) s = post s.cop0.bpc ∧ exec (.mfc0 d 5#5) s = post s.cop0.bda ∧
    exec (.mfc0 d 6#5) s = post s.cop0.jumpdest ∧ exec (.mfc0 d 7#5) s = post s.cop0.dcic ∧
    exec (.mfc0 d 8#5) s = post s.cop0.badVaddr ∧ exec (.mfc0 d 9#5) s = post s.cop0.bdam ∧
    exec (.mfc0 d 11#5) s = post s.cop0.bpcm ∧ exec (.mfc0 d 12#5) s = post s.cop0.sr ∧
    exec (.mfc0 d 14#5) s = post s.cop0.epc ∧ exec (.mfc0 d 15#5) s = post s.params.prid ∧
    (∃ v, exec (.mfc0 d 13#5) s = post v ∧
      v.getLsbD 10 = decide (s.intc.istat &&& s.intc.imask ≠ 0) ∧
      v.extractLsb' 2 5 = s.cop0.cause.extractLsb' 2 5 ∧ v.getLsbD 31 = s.cop0.cause.getLsbD 31 ∧
      v.extractLsb' 8 2 = s.cop0.cause.extractLsb' 8 2 ∧ v &&& 0x4FFFF883#32 = 0) ∧
    (r.toNat ∉ [3, 5, 6, 7, 8, 9, 11, 12, 13, 14, 15] →
      ∃ w, exec (.mfc0 d r) s = .fault (.unknownOpcode .processor s.pc w))) ∧
  ∀ (a r : RegNum) (s : State),
    let v := s.reg a
    let wrote c := Host.Outcome.next (s.setCop0 c)
    exec (.mtc0 a 3#5) s = wrote { s.cop0 with bpc := v } ∧
    exec (.mtc0 a 5#5) s = wrote { s.cop0 with bda := v } ∧
    exec (.mtc0 a 6#5) s = wrote { s.cop0 with jumpdest := v } ∧
    exec (.mtc0 a 7#5) s = wrote { s.cop0 with dcic := v } ∧
    exec (.mtc0 a 9#5) s = wrote { s.cop0 with bdam := v } ∧
    exec (.mtc0 a 11#5) s = wrote { s.cop0 with bpcm := v } ∧
    exec (.mtc0 a 12#5) s = wrote { s.cop0 with sr := v } ∧
    (∃ c, exec (.mtc0 a 13#5) s = wrote { s.cop0 with cause := c } ∧
      c.extractLsb' 8 2 = v.extractLsb' 8 2 ∧ c &&& 0xFFFFFCFF#32 = s.cop0.cause &&& 0xFFFFFCFF#32) ∧
    exec (.mtc0 a 8#5) s = wrote s.cop0 ∧ exec (.mtc0 a 14#5) s = wrote s.cop0 ∧
    exec (.mtc0 a 15#5) s = wrote s.cop0 ∧
    (r.toNat ∉ [3, 5, 6, 7, 8, 9, 11, 12, 13, 14, 15] →
      ∃ w, exec (.mtc0 a r) s = .fault (.unknownOpcode .processor s.pc w))

/-- 44_system_cop.md R285: RFE is one word; it moves the two upper pairs of SR down and changes nothing else. That
SR[3:0] becomes the old SR[5:2], as R285's operation says, where R285's own example (0x40C to 0x40F) says otherwise, is
the model's choice (log 27). With 60_exceptions.md R610, after an exception entry RFE brings back mode and interrupt
enable. -/
def Obligations.ReturnFromException : Prop :=
  (∀ w : Word, decodeCpu w = .ok .rfe ↔ w = 0x42000010#32) ∧
  (∀ s : State, ∃ sr, exec .rfe s = .next (s.setCop0 { s.cop0 with sr := sr }) ∧
    sr.extractLsb' 0 4 = s.cop0.sr.extractLsb' 2 4 ∧
    sr.extractLsb' 4 28 = s.cop0.sr.extractLsb' 4 28) ∧
  ∀ (e : Exc) (s t u : State), raise e s = .next t → exec .rfe t = .next u →
    u.cop0.sr.extractLsb' 0 4 = s.cop0.sr.extractLsb' 0 4

/-- 60_exceptions.md R620: when an interrupt is pending. MTC0 to CAUSE raises the two software requests, and an
enabled one is taken at the end of that MTC0's own step, with the EPC, the code and the vector of 10_state.md R45,
60_exceptions.md R601 and R611. That the I_STAT bits raised within the step (`young`) are not tested there is the model's
choice, its reading of R624 (log 14). -/
def Obligations.InterruptPending : Prop :=
  let pending (s : State) (istat : BitVec 11) (soft : Word) : Bool :=
    s.cop0.sr.getLsbD 0 &&
      ((s.cop0.sr.getLsbD 8 && soft.getLsbD 8) || (s.cop0.sr.getLsbD 9 && soft.getLsbD 9) ||
        (s.cop0.sr.getLsbD 10 && decide (istat &&& s.intc.imask ≠ 0)))
  (∀ s : State, s.interruptPending = pending s s.intc.istat s.cop0.cause) ∧
  ∀ (a : RegNum) (s : State), s.stage.excepted = false →
    ∃ t, exec (.mtc0 a 13#5) s = .next t ∧ t.interruptPending = pending s s.intc.istat (s.reg a) ∧
      (pending s (s.intc.istat &&& ~~~s.stage.young) (s.reg a) = true →
        (finish t).pc = (if s.cop0.sr.getLsbD 22 then 0xBFC00180#32 else 0x80000080#32) ∧
        (finish t).cop0.cause.extractLsb' 2 5 = 0 ∧
        (finish t).cop0.epc = (if s.pb.isSome then s.pc else s.stage.dpb.getD (s.pc + 4#32)))

/-! ## Coprocessor 2 -/

/-- 44_system_cop.md R288 to R291: the four moves. -/
def Obligations.Cop2Moves : Prop :=
  ∀ (t d : RegNum) (s : State),
    exec (.mfc2 t d) s = .next (s.postLoad t (s.gte.readData d)) ∧
    exec (.cfc2 t d) s = .next (s.postLoad t (s.gte.readCtrl d)) ∧
    exec (.mtc2 t d) s = .next (s.setGte (s.gte.writeData d (s.reg t))) ∧
    exec (.ctc2 t d) s = .next (s.setGte (s.gte.writeCtrl d (s.reg t)))

/-- 45_gte_state_arith.md R322, R323, R326, R327: what a data or a control register reads after it is written; a data
write never touches FLAG, a control write no other control register. -/
def Obligations.GteRegisters : Prop :=
  (∀ (g : Gte) (n : RegNum) (v : Word),
    (g.writeData n v).flag = g.flag ∧
    (n.toNat ∈ [0, 2, 4, 6, 12, 13, 14, 15, 20, 21, 22, 23, 24, 25, 26, 27, 30] →
      (g.writeData n v).readData n = v) ∧
    (n.toNat ∈ [1, 3, 5, 8, 9, 10, 11] →
      (g.writeData n v).readData n = (v.setWidth 16).signExtend 32) ∧
    (n.toNat ∈ [7, 16, 17, 18, 19] → (g.writeData n v).readData n = (v.setWidth 16).setWidth 32) ∧
    (n = 28 → (g.writeData n v).readData 28#5 = v &&& 0x7FFF#32 ∧
      (g.writeData n v).readData 29#5 = v &&& 0x7FFF#32) ∧
    (n = 29 ∨ n = 31 → g.writeData n v = g) ∧
    (n = 15 → (g.writeData n v).readData 12#5 = g.readData 13#5 ∧
      (g.writeData n v).readData 13#5 = g.readData 14#5)) ∧
  ∀ (g : Gte) (n m : RegNum) (v : Word),
    (g.writeCtrl n v).readCtrl n =
      (if n.toNat ∈ [4, 12, 20, 26, 27, 29, 30] then (v.setWidth 16).signExtend 32
        else if n = 31 then
          (v &&& 0x7FFFF000#32) ||| (if v &&& 0x7F87E000#32 = 0 then 0 else 0x80000000#32)
        else v) ∧
    (m ≠ n → (g.writeCtrl n v).readCtrl m = g.readCtrl m)

/-- 45_gte_state_arith.md R324: LZCR, data register 31, reads the number of leading bits of LZCS equal to its sign
bit. -/
def Obligations.LeadingCount : Prop :=
  ∀ g : Gte,
    let v := g.lzcs
    let n := (g.readData 31#5).toNat
    1 ≤ n ∧ n ≤ 32 ∧ (∀ k, k < n → v.getLsbD (31 - k) = v.getLsbD 31) ∧
      (n < 32 → v.getLsbD (31 - n) = !v.getLsbD 31)

/-- 46_gte_commands.md R384 to R397, R400 to R403: the colour and the vector commands complete in every state and
change only IR, MAC, FLAG and, the colour commands, the colour FIFO; MVMVA for each of its three matrices, while
the reserved matrix halts. -/
def Obligations.GteVectorCommands : Prop :=
  (∀ (a : GteArgs) (s : State),
    (∀ i ∈ [Instr.gteNcs a, .gteNct a, .gteNccs a, .gteNcct a, .gteNcds a, .gteNcdt a, .gteCc a,
        .gteCdp a, .gteDcpl a, .gteDpcs a, .gteDpct a, .gteIntpl a, .gteGpf a, .gteGpl a],
      completesOnGte i [.ir, .mac, .rgb, .flag] s) ∧
    completesOnGte (.gteOp a) [.ir, .mac, .flag] s ∧
    completesOnGte (.gteSqr a) [.ir, .mac, .flag] s ∧
    (a.mx ≠ 3 → completesOnGte (.gteMvmva a) [.ir, .mac, .flag] s)) ∧
  ∀ (a : GteArgs) (s : State), a.mx = 3 →
    ∃ w, exec (.gteMvmva a) s = .fault (.unknownOpcode .coprocessor s.pc w) ∧
      decodeCpu w = .ok (.gteMvmva a)

/-- 46_gte_commands.md R381 to R383, R398, R399, R403: the perspective, winding and depth commands complete in
every state and change only the parts their rules name. -/
def Obligations.GteGeometryCommands : Prop :=
  ∀ (a : GteArgs) (s : State),
    completesOnGte (.gteRtps a) [.ir, .ir0, .mac, .mac0, .sz, .sxy, .flag] s ∧
    completesOnGte (.gteRtpt a) [.ir, .ir0, .mac, .mac0, .sz, .sxy, .flag] s ∧
    completesOnGte (.gteNclip a) [.mac0, .flag] s ∧
    completesOnGte (.gteAvsz3 a) [.mac0, .otz, .flag] s ∧
    completesOnGte (.gteAvsz4 a) [.mac0, .otz, .flag] s

/-- 46_gte_commands.md R383, R398, R399: the exact values of NCLIP, AVSZ3 and AVSZ4, and their flags. -/
def Obligations.GteScalarResults : Prop :=
  ∀ (a : GteArgs) (s : State),
    let g := s.gte
    let cross : Int :=
      g.sxy0.sx.toInt * g.sxy1.sy.toInt + g.sxy1.sx.toInt * g.sxy2.sy.toInt +
        g.sxy2.sx.toInt * g.sxy0.sy.toInt - g.sxy0.sx.toInt * g.sxy2.sy.toInt -
        g.sxy1.sx.toInt * g.sxy0.sy.toInt - g.sxy2.sx.toInt * g.sxy1.sy.toInt
    let m3 : Int := g.zsf3.toInt * (g.sz1.toNat + g.sz2.toNat + g.sz3.toNat)
    let m4 : Int := g.zsf4.toInt * (g.sz0.toNat + g.sz1.toNat + g.sz2.toNat + g.sz3.toNat)
    let flagsOf (m : Int) (clamped : Bool) : Word :=
      (if m > 2 ^ 31 - 1 then 0x80010000#32 else 0) ||| (if m < -(2 ^ 31) then 0x80008000#32 else 0) |||
        (if clamped then 0x80040000#32 else 0)
    let otzOf (m : Int) : Nat := (max 0 (min 0xFFFF (m / 4096))).toNat
    (∃ t, exec (.gteNclip a) s = .next t ∧ t.gte.mac0 = BitVec.ofInt 32 cross ∧
      t.gte.readCtrl 31#5 = flagsOf cross false) ∧
    (∃ t, exec (.gteAvsz3 a) s = .next t ∧ t.gte.mac0 = BitVec.ofInt 32 m3 ∧
      t.gte.otz.toNat = otzOf m3 ∧
      t.gte.readCtrl 31#5 = flagsOf m3 (decide (m3 / 4096 < 0 ∨ 0xFFFF < m3 / 4096))) ∧
    ∃ t, exec (.gteAvsz4 a) s = .next t ∧ t.gte.mac0 = BitVec.ofInt 32 m4 ∧
      t.gte.otz.toNat = otzOf m4 ∧
      t.gte.readCtrl 31#5 = flagsOf m4 (decide (m4 / 4096 < 0 ∨ 0xFFFF < m4 / 4096))

/-- 45_gte_state_arith.md R331, R342, R344 to R347: every clamp limits the stored value and sets its flag bit in
the same operation, and every other stored bit of FLAG is as before. Bit 31 is computed (R330). -/
def Obligations.SaturationFlags : Prop :=
  ∀ (g : Gte) (i : Nat) (v w : Int) (l : Bool), 1 ≤ i → i ≤ 3 →
    let bit (h : Gte) (n : Nat) : Bool := (h.readCtrl 31#5).getLsbD n
    let lo : Int := if l then 0 else -0x8000
    let keeps (own : List Nat) (h : Gte) : Prop := ∀ n, n < 31 → n ∉ own → bit h n = bit g n
    let p := g.pushRgb
    let shade (m : BitVec 32) : Int := m.toInt / 16
    let clips (m : BitVec 32) : Bool := decide (shade m < 0 ∨ 0xFF < shade m)
    let colour (m : BitVec 32) : Nat := (max 0 (min 0xFF (shade m))).toNat
    keeps [25 - i] (g.setIr i v l) ∧ keeps [18] (g.pushSz v) ∧ keeps [18] (g.setOtz v) ∧
    keeps [14, 13] (g.pushSxy v w) ∧ keeps [12] (g.setIr0 v) ∧ keeps [21, 20, 19] p ∧
    (p.rgb0 = g.rgb1 ∧ p.rgb1 = g.rgb2 ∧ (p.rgb2.extractLsb' 0 8).toNat = colour g.mac1 ∧
      (p.rgb2.extractLsb' 8 8).toNat = colour g.mac2 ∧ (p.rgb2.extractLsb' 16 8).toNat = colour g.mac3 ∧
      p.rgb2.extractLsb' 24 8 = g.rgbc.extractLsb' 24 8 ∧
      bit p 21 = (bit g 21 || clips g.mac1) ∧ bit p 20 = (bit g 20 || clips g.mac2) ∧
      bit p 19 = (bit g 19 || clips g.mac3)) ∧
    ((g.setIr i v l).ir.at i = max lo (min 0x7FFF v) ∧
      bit (g.setIr i v l) (25 - i) = (bit g (25 - i) || decide (v < lo ∨ 0x7FFF < v))) ∧
    ((g.pushSz v).sz3.toNat = (max 0 (min 0xFFFF v)).toNat ∧
      bit (g.pushSz v) 18 = (bit g 18 || decide (v < 0 ∨ 0xFFFF < v))) ∧
    ((g.setOtz v).otz.toNat = (max 0 (min 0xFFFF v)).toNat ∧
      bit (g.setOtz v) 18 = (bit g 18 || decide (v < 0 ∨ 0xFFFF < v))) ∧
    ((g.pushSxy v w).sxy2.sx.toInt = max (-0x400) (min 0x3FF v) ∧
      (g.pushSxy v w).sxy2.sy.toInt = max (-0x400) (min 0x3FF w) ∧
      bit (g.pushSxy v w) 14 = (bit g 14 || decide (v < -0x400 ∨ 0x3FF < v)) ∧
      bit (g.pushSxy v w) 13 = (bit g 13 || decide (w < -0x400 ∨ 0x3FF < w))) ∧
    ((g.setIr0 v).ir0.toInt = max 0 (min 0x1000 v) ∧
      bit (g.setIr0 v) 12 = (bit g 12 || decide (v < 0 ∨ 0x1000 < v)))

/-! ## Graphics -/

/-- 47_gpu_commands.md R442, R443, R445, R450 to R455: the one-word commands complete in every state; what each sets,
and that nothing else of the unit changes but the command buffer, which keeps the command's words (log 16).
R460, R461, R464: the two transfer commands complete in every state and open a transfer of ceil(w h / 2) words at
the rectangle's corner. -/
def Obligations.Gp0Settings : Prop :=
  (∀ (a : BitVec 24) (s : State),
    let w : Word := a.setWidth 32
    let sets (i : Instr) (g : Gpu) :=
      exec i s = .next (s.setGpu { g with buf := encodeWords i, mode := .idle })
    let g := s.gpu
    sets (.gp0Nop a) g ∧ sets (.gp0ClearCache a) g ∧
    sets (.gp0DrawMode a)
      { g with stat := (g.stat &&& 0xFFFFF800#32) ||| (w &&& 0x7FF#32), rectFlip := a.extractLsb' 12 2 } ∧
    sets (.gp0TexWindow a) { g with texwin := a.extractLsb' 0 20 } ∧
    sets (.gp0AreaTl a) { g with areaTl := a.extractLsb' 0 19 } ∧
    sets (.gp0AreaBr a) { g with areaBr := a.extractLsb' 0 19 } ∧
    sets (.gp0Offset a) { g with offset := a.extractLsb' 0 22 } ∧
    sets (.gp0MaskBits a)
      { g with stat := (g.stat &&& 0xFFFFE7FF#32) ||| ((w <<< 11) &&& 0x1800#32) } ∧
    ∃ t, exec (.gp0Irq a) s = .next t ∧ s.changesOnly [.gpu, .intc] t ∧
      g.changesOnly [.stat, .buf, .mode] t.gpu ∧ t.gpu.stat = g.stat ||| 0x01000000#32 ∧
      t.intc.imask = s.intc.imask ∧
      t.intc.istat = if g.stat.getLsbD 24 then s.intc.istat else s.intc.istat ||| 2#11) ∧
  ∀ (a : BitVec 24) (p w : Word) (s : State),
    let wd := ((w.extractLsb' 0 10).toNat + 1023) % 1024 + 1
    let ht := ((w.extractLsb' 16 9).toNat + 511) % 512 + 1
    let opens (i : Instr) (m : GpuMode) : Prop :=
      exec i s = .next (s.setGpu
        { s.gpu with
          mode := m
          buf := encodeWords i
          rect := ⟨(p.extractLsb' 0 10).toNat, (p.extractLsb' 16 9).toNat, wd, ht⟩
          cx := 0
          cy := 0
          rem := (wd * ht + 1) / 2 })
    opens (.gp0ToVram a p w) .toVram ∧ opens (.gp0FromVram a p w) .fromVram ∧
      1 ≤ wd ∧ wd ≤ 1024 ∧ 1 ≤ ht ∧ ht ≤ 512

/-- 47_gpu_commands.md R444, R446 to R449, R494: the drawing commands complete in every state, change nothing but
VRAM, the command buffer (log 16) and the draw log (a textured polygon also GPUSTAT bits 8:0, which become the page
of its second texcoord word, R479), and append one log entry with their words. -/
def Obligations.Gp0Drawing : Prop :=
  ∀ (sh q tx se ra i2 i0 : Bool) (z : BitVec 2) (c : BitVec 24) (p w r : Word) (ws : List Word)
      (s : State),
    let draws (i : Instr) (ps : List GpuPart) : Prop :=
      ∃ g region, exec i s = .next (s.setGpu g) ∧ s.gpu.changesOnly ps g ∧ g.mode = .idle ∧
        g.buf = encodeWords i ∧ g.log = s.gpu.log ++ [⟨encodeWords i, region⟩]
    draws (.gp0Fill c p w) [.vram, .buf, .mode, .log] ∧
    draws (.gp0CopyVram c p w r) [.vram, .buf, .mode, .log] ∧
    draws (.gp0Line sh i2 se i0 c ws) [.vram, .buf, .mode, .log] ∧
    draws (.gp0Rect z tx se ra c ws) [.vram, .buf, .mode, .log] ∧
    draws (.gp0Polygon sh q false se ra c ws) [.vram, .buf, .mode, .log] ∧
    draws (.gp0Polygon sh q true se ra c ws) [.vram, .buf, .mode, .log, .stat] ∧
    ∃ t, exec (.gp0Polygon sh q true se ra c ws) s = .next t ∧
      t.gpu.stat.extractLsb' 9 23 = s.gpu.stat.extractLsb' 9 23 ∧
      t.gpu.stat.extractLsb' 0 9 = (ws.getD (if sh then 4 else 3) 0).extractLsb' 16 9

/-- 47_gpu_commands.md R444: after a fill every pixel of the rectangle, wrapped at the edges of VRAM, has the
colour, and every other pixel is as before, whatever the drawing area, the offset and the mask bits; the region is
logged. -/
def Obligations.FillPixels : Prop :=
  ∀ (c : BitVec 24) (p w : Word) (s : State),
    let x0 := (p.extractLsb' 0 10).toNat / 16 * 16
    let y0 := (p.extractLsb' 16 9).toNat
    let wd := ((w.extractLsb' 0 10).toNat + 15) / 16 * 16
    let ht := (w.extractLsb' 16 9).toNat
    encodeWords (.gp0Fill c p w) = [0x02#8 ++ c, p, w] ∧
    ∃ g, exec (.gp0Fill c p w) s = .next (s.setGpu g) ∧
      g.log = s.gpu.log ++ [⟨[0x02#8 ++ c, p, w], ⟨x0, y0, wd, ht⟩⟩] ∧
      ∀ x y, x < 1024 → y < 512 →
        ((∃ i j, i < wd ∧ j < ht ∧ x = (x0 + i) % 1024 ∧ y = (y0 + j) % 512) →
          g.pixel x y =
            0#1 ++ c.extractLsb' 19 5 ++ c.extractLsb' 11 5 ++ c.extractLsb' 3 5) ∧
        ((¬∃ i j, i < wd ∧ j < ht ∧ x = (x0 + i) % 1024 ∧ y = (y0 + j) % 512) →
          g.pixel x y = s.gpu.pixel x y)

/-- 47_gpu_commands.md R469 (1): no polygon, line or rectangle changes a pixel outside the drawing area. -/
def Obligations.DrawingAreaRespected : Prop :=
  ∀ (sh q tx se ra i2 i0 : Bool) (z : BitVec 2) (c : BitVec 24) (ws : List Word) (s t : State),
    ∀ i ∈ [Instr.gp0Polygon sh q tx se ra c ws, .gp0Line sh i2 se i0 c ws, .gp0Rect z tx se ra c ws],
      exec i s = .next t →
      ∀ x y, x < 1024 → y < 512 →
        ¬((s.gpu.areaTl.extractLsb' 0 10).toNat ≤ x ∧ x ≤ (s.gpu.areaBr.extractLsb' 0 10).toNat ∧
          (s.gpu.areaTl.extractLsb' 10 9).toNat ≤ y ∧ y ≤ (s.gpu.areaBr.extractLsb' 10 9).toNat) →
        t.gpu.pixel x y = s.gpu.pixel x y

/-- 47_gpu_commands.md R474: whichever INTERP the parameters select, an attribute inside a triangle lies between
the least and the greatest of its three values, is the vertex's at a vertex, and is the common value where the
three agree. R476 and 93_implementation_defined.md U18: a colour along a line lies between its two ends, is theirs at
the ends, and under the default is the exact formula. That it is free where the line is one pixel is the model's
choice (log 7). -/
def Obligations.InterpolationBounds : Prop :=
  (∀ (k : Interp) (c0 c1 j n : Nat), j ≤ n →
    let v := lineColour k c0 c1 j n
    min c0 c1 ≤ v ∧ v ≤ max c0 c1 ∧ (0 < n → j = 0 → v = c0) ∧ (0 < n → j = n → v = c1) ∧
      (c0 = c1 → v = c0) ∧ (k = .barycentric → 0 < n → v = (c0 * (n - j) + c1 * j) / n)) ∧
  ∀ (k : Interp) (w0 w1 w2 : Int) (a0 a1 a2 : Nat), 0 ≤ w0 → 0 ≤ w1 → 0 ≤ w2 → 0 < w0 + w1 + w2 →
    let v := interpolated k (w0 + w1 + w2) w0 w1 w2 a0 a1 a2
    min a0 (min a1 a2) ≤ v ∧ v ≤ max a0 (max a1 a2) ∧
      (w1 = 0 → w2 = 0 → v = a0) ∧ (w0 = 0 → w2 = 0 → v = a1) ∧ (w0 = 0 → w1 = 0 → v = a2) ∧
      (a0 = a1 → a1 = a2 → v = a0)

/-- 47_gpu_commands.md R462, R465: supplying exactly ceil(W H / 2) words returns the unit to Idle, with one log
entry for the rectangle, every pixel of it (wrapped at the edges of VRAM) the halfword that is its turn under the mask
bits, and every other pixel as before; any smaller number leaves the unit mid-transfer. R434, R466: what a GPUREAD
read gives and does, in a transfer from VRAM and outside one. -/
def Obligations.UploadWordCount : Prop :=
  (∀ s : State,
    let g := s.gpu
    let next := if g.cx + 1 = g.rect.w then (0, g.cy + 1) else (g.cx + 1, g.cy)
    (g.mode ≠ .fromVram → busRead 0x1F801810#32 .word s = .ok (g.readlatch, s)) ∧
    (g.mode = .fromVram → g.transferring = true →
      ∃ w h, busRead 0x1F801810#32 .word s = .ok (w, s.setGpu h) ∧
        g.changesOnly [.mode, .transfer, .readlatch] h ∧ h.readlatch = w ∧
        w.extractLsb' 0 16 = g.pixel (g.rect.x + g.cx) (g.rect.y + g.cy) ∧
        w.extractLsb' 16 16 =
          (if next.2 < g.rect.h then g.pixel (g.rect.x + next.1) (g.rect.y + next.2) else 0) ∧
        h.rem = g.rem - 1 ∧ h.rect = g.rect ∧ h.mode = if g.rem = 1 then .idle else .fromVram)) ∧
  ∀ (a : BitVec 24) (p w : Word) (s t : State) (data : List Word),
    exec (.gp0ToVram a p w) s = .next t →
    (data.length < t.gpu.rem → ∃ u,
      data.foldl (fun o d => andThen o (submitCommandWord d)) (.next t) = .next u ∧
        u.gpu.mode = .toVram ∧ u.gpu.rem = t.gpu.rem - data.length ∧ u.gpu.log = s.gpu.log) ∧
    (data.length = t.gpu.rem → ∃ u,
      data.foldl (fun o d => andThen o (submitCommandWord d)) (.next t) = .next u ∧
        u.gpu.mode = .idle ∧
        u.gpu.log = s.gpu.log ++ [⟨encodeWords (.gp0ToVram a p w), t.gpu.rect⟩] ∧
        s.changesOnly [.gpu] u ∧ s.gpu.changesOnly [.mode, .buf, .transfer, .log, .vram] u.gpu ∧
        (let r := t.gpu.rect
        let half (k : Nat) : BitVec 16 := (data.getD (k / 2) 0).extractLsb' (16 * (k % 2)) 16
        (∀ i j, i < r.w → j < r.h →
          u.gpu.pixel (r.x + i) (r.y + j) =
            let old := s.gpu.pixel (r.x + i) (r.y + j)
            if s.gpu.stat.getLsbD 12 = true ∧ old.getLsbD 15 = true then old
            else half (j * r.w + i) ||| (if s.gpu.stat.getLsbD 11 then 0x8000#16 else 0)) ∧
        ∀ x y, x < 1024 → y < 512 →
          (¬∃ i j, i < r.w ∧ j < r.h ∧ x = (r.x + i) % 1024 ∧ y = (r.y + j) % 512) →
          u.gpu.pixel x y = s.gpu.pixel x y))

/-- 47_gpu_commands.md R435, R436: writing the words of a GP0 command one by one to an idle unit is executing the
command: nothing happens before the last word, and the whole effect at it. -/
def Obligations.CommandWordByWord : Prop :=
  ∀ (i : Instr) (s : State), i.space = .gp0 → i.wf = true → s.gpu.mode = .idle →
    (encodeWords i).foldl (fun o d => andThen o (submitCommandWord d)) (.next s) = exec i s

/-- 47_gpu_commands.md R437, R441: a GP0 word while the unit waits to be read, and a command byte outside the tables
of either port, halt the machine. 49_dma.md R571, R575, R577, R578: so do the transfers the engine refuses, channel 3
from RAM or with too few bytes in the data FIFO, and channel 2 when the unit has nothing to give before it or is not
Idle after it, with the address and the contents of the channel's CHCR. R573: a linked list whose node points to itself
halts at the cap with the node and its header (with a cap of 0, the word 0: log 25). -/
def Obligations.GraphicsAndDmaHalts : Prop :=
  (∀ (w : Word) (s : State),
    let c := (w.extractLsb' 24 8).toNat
    (s.gpu.mode = .fromVram →
      submitCommandWord w s = .fault (.dmaDesyncError .graphics 0x1F801810#32 w)) ∧
    (s.gpu.mode = .idle →
      ((3 ≤ c ∧ c ≤ 0x1E) ∨ (0x48 ≤ c ∧ c ≤ 0x4F) ∨ (0x58 ≤ c ∧ c ≤ 0x5F) ∨ (0x81 ≤ c ∧ c ≤ 0x9F) ∨
          (0xA1 ≤ c ∧ c ≤ 0xBF) ∨ (0xC1 ≤ c ∧ c ≤ 0xDF) ∨ c = 0xE0 ∨ 0xE7 ≤ c) →
      submitCommandWord w s = .fault (.unknownOpcode .graphics 0x1F801810#32 w)) ∧
    (c ∉ [0, 1, 2, 3, 4, 5, 6, 7, 8, 16] →
      runGp1 w s = .fault (.unknownOpcode .graphics 0x1F801814#32 w))) ∧
  ∀ (n : Nat) (s : State), n < 7 → s.dma.active n = true →
    let c := s.dma.chan n
    let sync := (c.chcr.extractLsb' 9 2).toNat
    let count (v : BitVec 16) : Nat := if v = 0 then 0x10000 else v.toNat
    let ba := if sync = 0 then 1 else count (c.bcr.extractLsb' 16 16)
    let total := count (c.bcr.extractLsb' 0 16) * ba
    let start : Word := c.madr.setWidth 32
    let node := s.wordAt (start &&& 0x1FFFFC#32).toNat
    let halts := dmaChannel n s =
      .fault (.dmaDesyncError .dma (BitVec.ofNat 32 (0x1F801088 + 0x10 * n)) (s.dma.readChcr n))
    (n = 0 ∨ n = 1 ∨ n = 4 ∨ n = 5 → halts) ∧
    (n ≠ 6 → sync = 3 → halts) ∧
    (n ≠ 6 → sync = 2 → (n ≠ 2 ∨ c.chcr.getLsbD 0 = false) → halts) ∧
    (n = 2 → sync < 2 → c.chcr.getLsbD 0 = false → s.gpu.mode ≠ .fromVram → halts) ∧
    (n = 2 → sync < 2 → c.chcr.getLsbD 0 = true →
      ∀ t, repeatOut total (wordToGpu c) s = .next t → t.gpu.mode ≠ .idle → halts) ∧
    (n = 2 → sync < 2 → c.chcr.getLsbD 0 = false →
      ∀ t, repeatOut total (wordFromGpu c) s = .next t → t.gpu.mode ≠ .idle → halts) ∧
    (n = 2 → sync = 2 → c.chcr.getLsbD 0 = true →
      ∀ h t, linkedNodes s.params.llCap start 0 s = .ok (h, t) → t.gpu.mode ≠ .idle → halts) ∧
    (n = 2 → sync = 2 → c.chcr.getLsbD 0 = true → node.extractLsb' 24 8 = 0 → node.getLsbD 23 = false →
      node.extractLsb' 0 24 = c.madr →
      dmaChannel n s =
        .fault (.dmaDesyncError .dma start (if s.params.llCap = 0 then 0 else node))) ∧
    (n = 3 → sync < 2 → c.chcr.getLsbD 0 = true ∨ s.cdc.data.length < 4 * total → halts)

/-- 47_gpu_commands.md R481 to R490: the GP1 commands complete in every state; what each sets, nothing else changing.
R433: the live bits of GPUSTAT, and the stored ones. -/
def Obligations.Gp1AndStatus : Prop :=
  (∀ (a : BitVec 24) (s : State),
    let w : Word := a.setWidth 32
    let g := s.gpu
    let sets (i : Instr) (h : Gpu) := exec i s = .next (s.setGpu h)
    sets (.gp1Reset a)
      { g with
        mode := .idle, buf := [], rem := 0, stat := 0x14802000#32, texwin := 0, areaTl := 0, areaBr := 0
        offset := 0, rectFlip := 0, dispStart := 0
        hRange := BitVec.ofNat 24 (0x200 + (0x200 + 2560) * 2 ^ 12)
        vRange := BitVec.ofNat 20 (0x10 + (0x10 + 240) * 2 ^ 10) } ∧
    sets (.gp1ResetBuffer a) { g with mode := .idle, buf := [], rem := 0 } ∧
    sets (.gp1AckIrq a) { g with stat := g.stat &&& 0xFEFFFFFF#32 } ∧
    sets (.gp1DisplayEnable a)
      { g with stat := (g.stat &&& 0xFF7FFFFF#32) ||| (if a.getLsbD 0 then 0x00800000#32 else 0) } ∧
    sets (.gp1DmaDirection a)
      { g with stat := (g.stat &&& 0x9FFFFFFF#32) ||| ((w &&& 3#32) <<< 29) } ∧
    sets (.gp1DisplayStart a) { g with dispStart := a.extractLsb' 0 19 } ∧
    sets (.gp1HRange a) { g with hRange := a } ∧
    sets (.gp1VRange a) { g with vRange := a.extractLsb' 0 20 } ∧
    (∃ v, sets (.gp1DisplayMode a) { g with stat := v } ∧ v.extractLsb' 17 2 = a.extractLsb' 0 2 ∧
      v.extractLsb' 19 4 = a.extractLsb' 2 4 ∧ v.getLsbD 16 = a.getLsbD 6 ∧
      v.getLsbD 14 = a.getLsbD 7 ∧ v &&& 0xFF80BFFF#32 = g.stat &&& 0xFF80BFFF#32) ∧
    sets (.gp1GetInfo a)
      { g with
        readlatch :=
          match (a.extractLsb' 0 4).toNat with
          | 2 => g.texwin.setWidth 32
          | 3 => g.areaTl.setWidth 32
          | 4 => g.areaBr.setWidth 32
          | 5 => g.offset.setWidth 32
          | _ => g.readlatch }) ∧
  ∀ g : Gpu,
    let v := g.readStat
    v &&& 0x61FF5FFF#32 = g.stat &&& 0x61FF5FFF#32 ∧ v.getLsbD 15 = false ∧
      v.getLsbD 13 = (if g.stat.getLsbD 22 then !g.field else true) ∧
      v.getLsbD 26 = decide (g.mode = .idle) ∧ v.getLsbD 27 = decide (g.mode = .fromVram) ∧
      v.getLsbD 28 = decide (g.mode ≠ .fromVram) ∧ v.getLsbD 31 = g.field ∧
      v.getLsbD 25 =
        match (g.stat.extractLsb' 29 2).toNat with
        | 0 => false
        | 1 => true
        | 2 => v.getLsbD 28
        | _ => v.getLsbD 27

/-! ## Disc -/

/-- 48_cdrom_commands.md R514, R520, R545 to R547: a command's execution is the write of its byte to the command port
(log 17). Every one completes in every state, empties the parameter FIFO, queues exactly one first response behind what
stays queued, and changes nothing else. An acknowledge is queued when the count is accepted, the disc is there if needed
and the parameters are good (R522, R534, R537, R540), and then the eight motion commands take the pending motion events
off the queue; otherwise the error is queued. An unknown byte queues the error 0x40; an error's delivery gives the
status with bit 0 set and its code. That the parameter errors of GetTD (R537) and Test (R540) are found and queued at the
write, where those rules do not say when, is the model's choice (log 17). 70_reset_and_hazards.md R696 (c): whatever was
queued, the response to a command is still queued after the slots of the command's own invocation, and nothing is
delivered there where the queue was empty, if DISC_DELAY.ack is longer than CPI; if it is not, R696 (c) and R512 disagree,
and that the slot is R512's `disc_advance` in every case is the model's choice (log 29). -/
def Obligations.DiscCommands : Prop :=
  let answered (s : State) (q : List Event) (k : EventKind) : State :=
    s.setCdc { s.cdc with param := [], queue := q ++ [⟨s.params.ackPred + 1, k⟩] }
  let waits (s t : State) (k : EventKind) : Prop :=
    let u := lateSlots t
    u.cdc = (discAdvance (s.params.cpiPred + 1) t).cdc ∧
      (s.params.cpiPred < s.params.ackPred →
        (∃ d, ⟨d, k⟩ ∈ u.cdc.queue) ∧
          (s.cdc.queue = [] → u.cdc.resp = s.cdc.resp ∧ u.cdc.iflag = s.cdc.iflag))
  (∀ s : State,
    let ps := s.cdc.param
    let stays := s.cdc.queue.filter fun e =>
      match e.kind with
      | .sector | .playTick | .done _ => false
      | .ack _ _ | .err _ => true
    ∀ p ∈ [(Instr.cdcGetstat, DiscCmd.getstat, [0], false, false),
        (.cdcSetloc, .setloc, [3], false, false),
        (.cdcPlay, .play, [0, 1], true, true),
        (.cdcReadN, .readN, [0], true, true),
        (.cdcMotorOn, .motorOn, [0], false, false),
        (.cdcStop, .stop, [0], false, true),
        (.cdcPause, .pause, [0], false, true),
        (.cdcInit, .init, [0], false, true),
        (.cdcMute, .mute, [0], false, false),
        (.cdcDemute, .demute, [0], false, false),
        (.cdcSetfilter, .setfilter, [2], false, false),
        (.cdcSetmode, .setmode, [1], false, false),
        (.cdcGetparam, .getparam, [0], false, false),
        (.cdcGetlocL, .getlocL, [0], true, false),
        (.cdcGetlocP, .getlocP, [0], true, false),
        (.cdcGetTN, .getTN, [0], true, false),
        (.cdcGetTD, .getTD, [1], true, false),
        (.cdcSeekL, .seekL, [0], true, true),
        (.cdcSeekP, .seekP, [0], true, true),
        (.cdcTest, .test, [1], false, false),
        (.cdcGetID, .getID, [0], false, false),
        (.cdcReadS, .readS, [0], true, true),
        (.cdcReadTOC, .readTOC, [0], true, false)],
      let bad : Option Byte :=
        match p.2.1 with
        | .setloc =>
          if (∃ b ∈ ps, 9 < b.toNat / 16 ∨ 9 < b.toNat % 16) ∨ 0x59 < (ps.getD 1 0).toNat ∨
              0x74 < (ps.getD 2 0).toNat then some 0x10 else none
        | .getlocL => if s.cdc.hdr = none then some 0x80 else none
        | .getTD => if ps.getD 0 0 = 0 ∨ ps.getD 0 0 = 1 then none else some 0x10
        | .test => if ps.getD 0 0 = 0x20 then none else some 0x10
        | _ => none
      let a : List Event × EventKind :=
        if ps.length ∉ p.2.2.1 then (s.cdc.queue, .err 0x20)
        else if p.2.2.2.1 = true ∧ s.cdc.disc = none then (s.cdc.queue, .err 0x80)
        else
          match bad with
          | some e => (s.cdc.queue, .err e)
          | none => (if p.2.2.2.2 then stays else s.cdc.queue, .ack p.2.1 ps)
      exec p.1 s = .next (answered s a.1 a.2) ∧ waits s (answered s a.1 a.2) a.2) ∧
  (∀ (b : Byte) (s : State),
    b.toNat ∉ [1, 2, 3, 6, 7, 8, 9, 0xA, 0xB, 0xC, 0xD, 0xE, 0xF, 0x10, 0x11, 0x13, 0x14, 0x15, 0x16, 0x19,
      0x1A, 0x1B, 0x1E] →
    discCommandByte b s = .next (answered s s.cdc.queue (.err 0x40)) ∧
      waits s (answered s s.cdc.queue (.err 0x40)) (.err 0x40)) ∧
  ∀ (s : State) (d n : Nat) (e : Byte) (q : List Event),
    s.cdc.queue = ⟨d, .err e⟩ :: q → d ≤ n → s.cdc.iflag = 0 →
    let t := discAdvance n s
    t.cdc.resp = [s.cdc.stat ||| 1#8, e] ∧ t.cdc.iflag = 5 ∧ t.cdc.queue = q

/-- 48_cdrom_commands.md R512, R549 (b): while an interrupt kind is unacknowledged no response is delivered, and
nothing raises the disc's interrupt line. -/
def Obligations.DiscWaitsForAcknowledge : Prop :=
  ∀ (n : Nat) (s : State), s.cdc.iflag ≠ 0 →
    (discAdvance n s).cdc.iflag = s.cdc.iflag ∧ (discAdvance n s).cdc.resp = s.cdc.resp ∧
      (discAdvance n s).cdc.sector = s.cdc.sector ∧ (discAdvance n s).intc = s.intc ∧
      s.changesOnly [.cdc] (discAdvance n s)

/-- 48_cdrom_commands.md R548, FS's property: with a disc in, an idle controller that is told to read acknowledges
DISC_DELAY.ack cycles later and then, acknowledged in turn, is data-ready with exactly the sector at the target. The
cycles are those of R512's `disc_advance`. -/
def Obligations.ReadOrdering : Prop :=
  ∀ (s : State) (lba : Nat) (d : List (List Byte)) (sec : List Byte),
    s.cdc.disc = some d → d[lba]? = some sec → s.cdc.target = some (lba : Int) → s.cdc.queue = [] →
    s.cdc.iflag = 0 → s.cdc.ien = 0x1F#5 → s.cdc.dmode = .idle → s.cdc.motor = true →
    s.cdc.param = [] → s.cdc.cmode = 0 →
    ∃ t u, exec .cdcReadN s = .next t ∧ t.cdc.iflag = 0 ∧ t.cdc.resp = s.cdc.resp ∧
      u = discAdvance (s.params.ackPred + 1) t ∧
      u.cdc.iflag = 3 ∧ u.cdc.resp = [0x02] ∧ u.cdc.dmode = .reading ∧ u.cdc.pos = lba ∧
      u.intc.istat.getLsbD 2 = true ∧ u.cdc.sector = s.cdc.sector ∧
      ∀ n, (discAdvance n u).cdc.sector = s.cdc.sector ∧
        let v := discAdvance (s.params.seekPred + s.params.readPred + 2)
          (u.setCdc { u.cdc with iflag := 0 })
        v.cdc.iflag = 1 ∧ v.cdc.resp = [0x22] ∧ v.cdc.sector = some sec ∧ v.cdc.pos = lba + 1

/-! ## Timers and DMA -/

/-- 60_exceptions.md R666: with RST = 1 the count runs 0, 1, ..., target, 0: after `k` ticks from 0 it is `k`
modulo `target + 1`; with RST = 0 it is the tick count modulo 2^16. -/
def Obligations.TimerPeriod : Prop :=
  ∀ (t : Timer) (k : Nat), t.count = 0 →
    ((Timer.ticks k t).1.count.toNat =
      if t.mode.getLsbD 3 then k % (t.target.toNat + 1) else k % 2 ^ 16) ∧
    (Timer.ticks k t).1.target = t.target

/-- 49_dma.md R562, R566, R574: the ordering-table clear of channel 6 in its slot. Every one of the `n` words
from MADR down points to the word below it, the last holds the terminator, START and TRIG are cleared, and no
other byte changes; a count of 0 is 0x10000, and addresses wrap in RAM. -/
def Obligations.OrderingTable : Prop :=
  ∀ s : State, s.memoryCanonical = true → s.dma.active 6 = true →
    let bc := (s.dma.chan 6).bcr.extractLsb' 0 16
    let n := if bc = 0 then 0x10000 else bc.toNat
    let node (i : Nat) : Word := (s.dma.chan 6).madr.setWidth 32 - BitVec.ofNat 32 (4 * i)
    let place (i : Nat) : Nat := (node i &&& 0x001FFFFC#32).toNat
    ∃ t, dmaChannel 6 s = .next t ∧ t.dma.active 6 = false ∧ s.changesOnly [.mem, .dma, .intc] t ∧
      (∀ i, i < n → t.wordAt (place i) =
        if i + 1 = n then 0x00FFFFFF#32 else node (i + 1) &&& 0x001FFFFF#32) ∧
      ∀ c, (∀ i, i < n → c < place i ∨ place i + 4 ≤ c) → t.byte c = s.byte c

/-! ## Steps -/

/-- 10_state.md R40 (steps 1 to 8), R42 (load_wins), R43, R45: when the word at an aligned pc in plain memory
decodes to `i`, a step of a machine that is neither halted nor held is `exec i` on the latched state, then the
previous load's commit, the interrupt check and the pc, then the device slots. -/
def Obligations.StepRunsDecoded : Prop :=
  ∀ (i : Instr) (s : State), s.halt = none → s.host.held = false → s.pc.toNat % 4 = 0 →
    plainAt (phys s.pc) .word = true → decodeCpu (s.wordAt (phys s.pc).toNat) = .ok i →
    step s = andThen (andThen (exec i s.latch) fun t => .next (finish t)) deviceSlots

/-- 10_state.md R40 steps 5 to 8, R42, R43, R45, 60_exceptions.md R601, R610: what is put around an executed
instruction. R624: an I_STAT bit raised within the step is not tested in it. The record `stage` that carries the latches,
and in `young` the I_STAT bits that were 0 when the step began, is the model's own (logs 12, 14). -/
def Obligations.FinishStages : Prop :=
  (∀ s : State, s.latch.stage.young = ~~~s.intc.istat) ∧
  (∀ (i : Instr) (s t : State), i.space = .cpu → exec i s = .next t → t.stage.young = s.stage.young) ∧
  ∀ t : State,
    let tested := t.setIntc { t.intc with istat := t.intc.istat &&& ~~~t.stage.young }
    (finish t).stage = .idle ∧
    (t.stage.excepted = true → (finish t).pc = t.pc ∧ (finish t).cop0 = t.cop0) ∧
    (t.stage.excepted = false → tested.interruptPending = false →
      (finish t).pc = t.stage.dpb.getD (t.pc + 4#32) ∧ (finish t).pb = t.pb ∧ (finish t).cop0 = t.cop0) ∧
    (t.stage.excepted = false → tested.interruptPending = true →
      (finish t).cop0.sr.extractLsb' 0 6 = t.cop0.sr.extractLsb' 0 4 ++ 0#2 ∧
      (finish t).cop0.sr.extractLsb' 6 26 = t.cop0.sr.extractLsb' 6 26 ∧
      (finish t).cop0.badVaddr = t.cop0.badVaddr ∧ (finish t).cop0.cause.extractLsb' 28 2 = 0 ∧
      (finish t).cop0.cause &&& 0x4FFFFF83#32 = t.cop0.cause &&& 0x4FFFFF83#32 ∧
      (finish t).pc = (if t.cop0.sr.getLsbD 22 then 0xBFC00180#32 else 0x80000080#32) ∧
      (finish t).pb = none ∧
      (finish t).cop0.cause.getLsbD 31 = t.pb.isSome ∧ (finish t).cop0.cause.extractLsb' 2 5 = 0 ∧
      (finish t).cop0.epc = (if t.pb.isSome then t.pc else t.stage.dpb.getD (t.pc + 4#32))) ∧
    (∀ r v, t.stage.dpl = some (r, v) → t.params.collision = .loadWins →
      (finish t).gpr = t.gprWith r v) ∧
    (∀ r v, t.stage.dpl = some (r, v) → t.params.collision = .laterWriteWins →
      (finish t).gpr =
        if t.stage.wrote = some r ∨ t.pl.map Prod.fst = some r then t.gpr else t.gprWith r v) ∧
    (t.stage.dpl = none → (finish t).gpr = t.gpr) ∧
    (finish t).pl = t.pl ∧
    t.changesOnly [.gpr, .pc, .pb, .stage, .cop0] (finish t)

/-- 10_state.md R42, R47, 70_reset_and_hazards.md R690, with LOAD_COLLISION = load_wins: whatever the next
instruction is and whether or not it traps, after its step the register a load has posted holds the loaded
value. -/
def Obligations.LoadLandsOneStepLater : Prop :=
  ∀ (s t : State) (r : RegNum) (v : Word), s.params.collision = .loadWins → s.pl = some (r, v) → r ≠ 0 →
    step s = .next t → t.reg r = v

/-- 10_state.md R25, R43: the pc moves on by 4, to the target a branch posted one instruction earlier, or to the
exception vector, and nowhere else. R34, 60_exceptions.md R612: EPC and BadVaddr change only in a step that ends at the
vector. -/
def Obligations.PcAndSavedRegisters : Prop :=
  (∀ s t : State, step s = .next t →
    t.pc = s.pb.getD (s.pc + 4#32) ∨ t.pc = 0xBFC00180#32 ∨ t.pc = 0x80000080#32) ∧
  ∀ s t : State, step s = .next t →
    t.cop0.epc ≠ s.cop0.epc ∨ t.cop0.badVaddr ≠ s.cop0.badVaddr →
    t.pc = 0xBFC00180#32 ∨ t.pc = 0x80000080#32

/-- 10_state.md R41, R44, 46_gte_commands.md R380: an undecodable word halts or takes the reserved-instruction
exception, by the policy (for a coprocessor-0 word under the policy reserved_instruction the model's choice: log 31); a
misaligned pc enters the address-error exception at fetch, without a bus access, with EPC
and BadVaddr the pc itself and BD = 0 (60_exceptions.md R602, 43_branch_jump.md R264; log 13). -/
def Obligations.FetchAndDecodeFailures : Prop :=
  (∀ (w : Word) (e : Reject) (s : State), decodeCpu w = .error e →
    (s.params.undecodable = .halt →
      ∃ c, runWord w s = .fault (.unknownOpcode c s.pc w) ∧ (c = .processor ∨ c = .coprocessor)) ∧
    (s.params.undecodable = .reservedInstruction → ∃ t, runWord w s = .next t ∧ s.entered .ri t)) ∧
  ∀ (s : State) (k : Word → State → Out), s.pc.toNat % 4 ≠ 0 →
    ∃ t, fetch s k = .next t ∧ s.enteredAt (.adEL s.pc) s.pc false t

/-- 10_state.md R60, 60_exceptions.md R650, R653, R654 (that `step` answers a fault and a refusal: logs 10, 11): a
halted machine has no step, a held one has none until it
is let go, and under Continue a breakpoint at the pc holds the machine before the instruction has any effect. 00_scope.md
R7: what the host does to a machine it does not hold changes nothing. R47: an instruction that halts leaves the state as
it was, with the record in HALT; that this holds also where its store halted at a device port, of which row U11 of
93_implementation_defined.md calls the device's state any value, is the model's choice (log 10). R60: a halt in the engine's
slot leaves all that has landed, the processor's step, the channels before and the words moved, and only the engine, and the
graphics processor where its port halted (U11), in a state that nothing is said of, but that START of channel 2 is still set
where the graphics processor was not ready (R575, C4 of 90_conflicts.md; against R60's any value the model's choice, log
10). -/
def Obligations.HoldAndHalt : Prop :=
  (∀ (s : State) (e : Fault), processorStep s = .fault e → observed s = s.setHalt e.record) ∧
  (∀ (s t : State) (e : Fault), processorStep s = .next t → dmaSlot t = .fault e →
    let o := observed s
    o.halt = e.record ∧ t.changesOnly [.mem, .intc, .gpu, .cdc, .dma, .halt] o ∧
    ∃ k u, k < 7 ∧ repeatOut k dmaChannel t = .next u ∧ dmaChannel k u = .fault e ∧
      let c := u.dma.chan k
      let sync := (c.chcr.extractLsb' 9 2).toNat
      let out := c.chcr.getLsbD 0
      (k ≠ 2 ∨ sync = 3 ∨ (sync = 2 ∧ out = false) ∨ (sync < 2 ∧ out = false ∧ u.gpu.mode ≠ .fromVram) →
        u.changesOnly [.dma, .halt] o) ∧
      (k = 2 → sync < 3 → (sync = 2 → out = true) →
        e = .dmaDesyncError .dma 0x1F8010A8#32 (u.dma.readChcr 2) → (o.dma.chan 2).chcr.getLsbD 24 = true) ∧
      (k = 2 → sync < 2 → out = true → ∀ j v, j < c.total → repeatOut j (wordToGpu c) u = .next v →
        wordToGpu c j v = .fault e → v.changesOnly [.dma, .gpu, .halt] o) ∧
      (k = 2 → sync < 2 → out = true → ∀ v, repeatOut c.total (wordToGpu c) u = .next v →
        v.changesOnly [.dma, .halt] o) ∧
      (k = 2 → sync < 2 → out = false → u.gpu.mode = .fromVram →
        ∀ v, repeatOut c.total (wordFromGpu c) u = .next v → v.changesOnly [.dma, .halt] o) ∧
      (k = 2 → sync = 2 → out = true →
        (∀ h v, linkedNodes u.params.llCap (c.madr.setWidth 32) 0 u = .ok (h, v) →
          v.changesOnly [.dma, .halt] o) ∧
        (linkedNodes u.params.llCap (c.madr.setWidth 32) 0 u = .error e →
          (listLast u.params.llCap (c.madr.setWidth 32) u).changesOnly
            (if e.record.map (·.component) = some .graphics then [.dma, .gpu, .halt] else [.dma, .halt]) o))) ∧
  ∀ (s : State) (n : Nat),
    (s.halt ≠ none → step s = .fault .halted) ∧
    (s.halt = none → s.host.held = true → step s = .refused .heldByHost) ∧
    (s.pc ∈ s.host.brk → continueFrom (n + 1) s = s.setHost { s.host with held := true }) ∧
    (hostContinue n s).host.held = true ∧ (hostStep s).host.held = true ∧
    (s.host.held = false → ∀ (r : RegNum) (v : Word) (a : Nat) (bs : List Byte),
      hostWriteReg r v s = s ∧ hostWritePc v s = s ∧ hostWriteHi v s = s ∧ hostWriteLo v s = s ∧
        hostWriteMemory a bs s = s ∧ hostSetBreak v s = s ∧ hostClearBreak v s = s)

/-- 48_cdrom_commands.md R519, 60_exceptions.md R650, R653, 10_state.md R60: no step changes the parameters, the
disc, the breakpoints, the hold or HALT. -/
def Obligations.StepKeepsFixed : Prop :=
  ∀ s t : State, step s = .next t →
    t.params = s.params ∧ t.cdc.disc = s.cdc.disc ∧ t.host.brk = s.host.brk ∧
      t.host.held = s.host.held ∧ t.host.attached = s.host.attached ∧ t.halt = s.halt

/-- Every step keeps the memory's canonical form, the model's own (log 3), from any state that has it. -/
def Obligations.StepKeepsMemory : Prop :=
  ∀ s t : State, s.memoryCanonical = true → step s = .next t → t.memoryCanonical = true

/-- Every step keeps the hard-wired and reserved bits: register 0, the bits of CAUSE that read 0, the I_STAT bits
without a source (60_exceptions.md R623), the bits of CHCR and DICR that are not stored (49_dma.md R562,
R568). -/
def Obligations.StepKeepsReservedBits : Prop :=
  ∀ s t : State, step s = .next t →
    (s.zeroReg = true → t.zeroReg = true) ∧ (s.interruptBits = true → t.interruptBits = true) ∧
      (s.dmaBits = true → t.dmaBits = true)

/-- Every step keeps the whole invariant: with the above, the four states of the graphics command machine with its
cursor and counts (47_gpu_commands.md R432), and the sizes of the disc FIFOs and sectors (48_cdrom_commands.md R502,
R519). The idle record of a step (log 12), the sorted form of memory (log 3) and that of VRAM (log 4) are the model's
own. -/
def Obligations.StepKeepsInvariant : Prop :=
  ∀ s t : State, s.Inv → step s = .next t → t.Inv

/-! ## Encoding -/

/-- Words written out from the spec's own examples decode to the instructions they stand for. -/
def Obligations.DecodeWords : Prop :=
  decodeCpu 0x00221820#32 = .ok (.add 3#5 1#5 2#5) ∧
  decodeCpu 0x2022FFFF#32 = .ok (.addi 2#5 1#5 0xFFFF#16) ∧
  decodeCpu 0x00220018#32 = .ok (.mult 1#5 2#5) ∧
  decodeCpu 0x8C220004#32 = .ok (.lw 2#5 1#5 4#16) ∧
  decodeCpu 0x10220003#32 = .ok (.beq 1#5 2#5 3#16) ∧
  decodeCpu 0x0040F809#32 = .ok (.jalr 31#5 2#5) ∧
  decodeCpu 0x42000010#32 = .ok .rfe ∧
  decodeCpu 0x4802C000#32 = .ok (.mfc2 2#5 24#5) ∧
  decodeCpu 0x4A080012#32 = .ok (.gteMvmva ⟨0, true, 0, 0, 0, 0, false, 0⟩) ∧
  decodeGp1 0x10000003#32 = .ok (.gp1GetInfo 3#24) ∧
  decodeDisc 0x06#8 = .ok .cdcReadN ∧
  decodeGp0 [0x02FF0000#32, 0x00000000#32, 0x00100010#32] =
    .ok (.gp0Fill 0xFF0000#24 0 0x00100010#32, [])

/-- Decoding what the encoder writes gives the instruction back, for every well-formed instruction of the
processor, GP1 and disc spaces, with every operand. -/
def Obligations.RoundTrip : Prop :=
  ∀ i : Instr, i.wf = true → i.space ≠ .gp0 → decode i.space (encode i) = .ok i

/-- The same for the graphics commands of GP0, whose length the first word decides, in a stream of any further
words. -/
def Obligations.RoundTripGp0 : Prop :=
  ∀ (i : Instr) (rest : List Word), i.wf = true → i.space = .gp0 →
    decodeGp0 (encodeWords i ++ rest) = .ok (i, rest) ∧ decode .gp0 (encode i) = .ok i

/-- The other direction: a processor word that decodes is the word of the instruction it decodes to. -/
def Obligations.DecodeIsExact : Prop :=
  ∀ (w : Word) (i : Instr), decodeCpu w = .ok i → encodeWords i = [w] ∧ i.space = .cpu ∧ i.wf = true

end
end

