-- ==== Sys2Proof/Laws/Memory.lean ====
section
/-!
SUPPORT. Rising lists and the byte memory: what a write changes, and that every memory operation keeps the
canonical form.
-/

namespace Sys2Proof.Machine

namespace Cells

variable {β : Type}

/-! ## Reading after a change -/

theorem get?_put_same (m : List (Nat × β)) (a : Nat) (v : β) : get? (put m a v) a = some v := by
  induction m with
  | nil => simp [put, get?]
  | cons c t ih =>
    obtain ⟨k, w⟩ := c
    by_cases h1 : a < k
    · simp [put, h1, get?]
    · by_cases h2 : a = k
      · simp [put, h2, get?]
      · simp [put, h1, h2, get?, Ne.symm h2, ih]

theorem get?_put_other (m : List (Nat × β)) {a b : Nat} (v : β) (h : b ≠ a) :
    get? (put m a v) b = get? m b := by
  induction m with
  | nil => simp [put, get?, Ne.symm h]
  | cons c t ih =>
    obtain ⟨k, w⟩ := c
    by_cases h1 : a < k
    · simp [put, h1, get?, Ne.symm h]
    · by_cases h2 : a = k
      · subst h2; simp [put, get?, Ne.symm h]
      · simp [put, h1, h2, get?, ih]

theorem get?_erase_other (m : List (Nat × β)) {a b : Nat} (h : b ≠ a) :
    get? (erase m a) b = get? m b := by
  induction m with
  | nil => rfl
  | cons c t ih =>
    obtain ⟨k, w⟩ := c
    by_cases h1 : k = a
    · subst h1; simp [erase, get?, Ne.symm h]
    · simp [erase, h1, get?, ih]

/-! ## Rising keys -/

theorem risingAbove_weaken {m : List (Nat × β)} {a b : Nat} (h : risingAbove b m = true) (hab : a ≤ b) :
    risingAbove a m = true := by
  cases m with
  | nil => rfl
  | cons c t =>
    simp only [risingAbove, Bool.and_eq_true, decide_eq_true_eq] at h ⊢
    exact ⟨by omega, h.2⟩

theorem risingAbove_rising {m : List (Nat × β)} {a : Nat} (h : risingAbove a m = true) :
    rising m = true := by
  cases m with
  | nil => rfl
  | cons c t =>
    simp only [risingAbove, Bool.and_eq_true] at h
    exact h.2

theorem risingAbove_put {m : List (Nat × β)} {lo a : Nat} (v : β) (h : risingAbove lo m = true)
    (ha : lo < a) : risingAbove lo (put m a v) = true := by
  induction m generalizing lo with
  | nil => simp [put, risingAbove, ha]
  | cons c t ih =>
    obtain ⟨k, w⟩ := c
    simp only [risingAbove, Bool.and_eq_true, decide_eq_true_eq] at h
    by_cases h1 : a < k
    · simp [put, h1, risingAbove, ha, h.2]
    · by_cases h2 : a = k
      · subst h2; simp [put, risingAbove, ha, h.2]
      · simp only [put, h1, h2, if_false, risingAbove, Bool.and_eq_true, decide_eq_true_eq]
        exact ⟨h.1, ih h.2 (by omega)⟩

theorem rising_put {m : List (Nat × β)} (a : Nat) (v : β) (h : rising m = true) :
    rising (put m a v) = true := by
  cases m with
  | nil => rfl
  | cons c t =>
    obtain ⟨k, w⟩ := c
    simp only [rising] at h
    by_cases h1 : a < k
    · simp [put, h1, rising, risingAbove, h]
    · by_cases h2 : a = k
      · subst h2; simpa [put, rising] using h
      · simp only [put, h1, h2, if_false, rising]
        exact risingAbove_put v h (by omega)

theorem risingAbove_erase {m : List (Nat × β)} {lo : Nat} (a : Nat) (h : risingAbove lo m = true) :
    risingAbove lo (erase m a) = true := by
  induction m generalizing lo with
  | nil => rfl
  | cons c t ih =>
    obtain ⟨k, w⟩ := c
    simp only [risingAbove, Bool.and_eq_true, decide_eq_true_eq] at h
    by_cases h1 : k = a
    · simp only [erase, h1, if_true]
      exact risingAbove_weaken h.2 (by omega)
    · simp only [erase, h1, if_false, risingAbove, Bool.and_eq_true, decide_eq_true_eq]
      exact ⟨h.1, ih h.2⟩

theorem rising_erase {m : List (Nat × β)} (a : Nat) (h : rising m = true) :
    rising (erase m a) = true := by
  cases m with
  | nil => rfl
  | cons c t =>
    obtain ⟨k, w⟩ := c
    simp only [rising] at h
    by_cases h1 : k = a
    · simp only [erase, h1, if_true]; exact risingAbove_rising h
    · simp only [erase, h1, if_false, rising]; exact risingAbove_erase a h

theorem get?_of_risingAbove {m : List (Nat × β)} {lo a : Nat} (h : risingAbove lo m = true) (ha : a ≤ lo) :
    get? m a = none := by
  induction m generalizing lo with
  | nil => rfl
  | cons c t ih =>
    obtain ⟨k, w⟩ := c
    simp only [risingAbove, Bool.and_eq_true, decide_eq_true_eq] at h
    have : k ≠ a := by omega
    simp only [get?, if_neg this]
    exact ih h.2 (by omega)

/-- With rising keys an erased key is listed no more. -/
theorem get?_erase_same {m : List (Nat × β)} (a : Nat) (h : rising m = true) :
    get? (erase m a) a = none := by
  induction m with
  | nil => rfl
  | cons c t ih =>
    obtain ⟨k, w⟩ := c
    simp only [rising] at h
    by_cases h1 : k = a
    · subst h1; simp only [erase, if_true]; exact get?_of_risingAbove h (Nat.le_refl _)
    · simp only [erase, h1, if_false, get?]
      exact ih (risingAbove_rising h)

/-! ## Every entry -/

theorem all_put {m : List (Nat × β)} {p : Nat × β → Bool} {a : Nat} {v : β} (h : m.all p = true)
    (ha : p (a, v) = true) : (put m a v).all p = true := by
  induction m with
  | nil => simpa [put] using ha
  | cons c t ih =>
    obtain ⟨k, w⟩ := c
    simp only [List.all_cons, Bool.and_eq_true] at h
    by_cases h1 : a < k
    · simp [put, h1, ha, h.1, h.2]
    · by_cases h2 : a = k
      · subst h2; simp [put, ha, h.2]
      · simp only [put, h1, h2, if_false, List.all_cons, Bool.and_eq_true]; exact ⟨h.1, ih h.2⟩

theorem all_erase {m : List (Nat × β)} {p : Nat × β → Bool} (a : Nat) (h : m.all p = true) :
    (erase m a).all p = true := by
  induction m with
  | nil => rfl
  | cons c t ih =>
    obtain ⟨k, w⟩ := c
    simp only [List.all_cons, Bool.and_eq_true] at h
    by_cases h1 : k = a
    · simp only [erase, h1, if_true]; exact h.2
    · simp only [erase, h1, if_false, List.all_cons, Bool.and_eq_true]; exact ⟨h.1, ih h.2⟩

end Cells

namespace Memory

/-! ## The canonical form is kept -/

theorem wf_nil : wf [] = true := rfl

theorem wf_iff (m : Memory) :
    wf m = true ↔ Cells.rising m = true ∧ (m.all fun c => !(unlisted c.1 == some c.2)) = true := by
  simp [wf]

theorem wf_writeByte {m : Memory} (a : Nat) (b : Byte) (h : wf m = true) : wf (writeByte m a b) = true := by
  rw [wf_iff] at h ⊢
  unfold writeByte
  split
  · exact ⟨Cells.rising_erase a h.1, Cells.all_erase a h.2⟩
  · next hne => exact ⟨Cells.rising_put a b h.1, Cells.all_put h.2 (by simpa using hne)⟩

theorem wf_write {m : Memory} (a : Nat) (n : Width) (v : Word) (h : wf m = true) :
    wf (write m a n v) = true := by
  cases n <;> simp only [write] <;> repeat' apply wf_writeByte
  all_goals exact h

theorem wf_writeBytes {m : Memory} (bs : List Byte) (a : Nat) (h : wf m = true) :
    wf (writeBytes m a bs) = true := by
  induction bs generalizing m a with
  | nil => exact h
  | cons b bs ih => exact ih (a + 1) (wf_writeByte a b h)

/-! ## Reading after a write -/

theorem known_writeByte_same {m : Memory} (a : Nat) (b : Byte) (h : wf m = true) :
    known (writeByte m a b) a = some b := by
  by_cases hu : unlisted a = some b
  · simp [known, writeByte, hu, Cells.get?_erase_same a ((wf_iff m).1 h).1]
  · simp [known, writeByte, hu, Cells.get?_put_same]

theorem known_writeByte_other (m : Memory) {a c : Nat} (b : Byte) (h : c ≠ a) :
    known (writeByte m a b) c = known m c := by
  by_cases hu : unlisted a = some b
  · simp [known, writeByte, hu, Cells.get?_erase_other m h]
  · simp [known, writeByte, hu, Cells.get?_put_other m b h]

/-- The byte written is the byte read. -/
theorem readByte_writeByte_same {m : Memory} (a : Nat) (b : Byte) (h : wf m = true) :
    readByte (writeByte m a b) a = b := by
  simp [readByte, known_writeByte_same a b h]

/-- A byte write leaves every other byte alone. -/
theorem readByte_writeByte_other (m : Memory) {a c : Nat} (b : Byte) (h : c ≠ a) :
    readByte (writeByte m a b) c = readByte m c := by
  simp [readByte, known_writeByte_other m b h]

/-- A write leaves every byte outside its own alone. -/
theorem readByte_write_other (m : Memory) {a c : Nat} (n : Width) (v : Word)
    (h : c < a ∨ a + n.bytes ≤ c) : readByte (write m a n v) c = readByte m c := by
  cases n <;> simp only [write, Width.bytes] at h ⊢ <;>
    simp (disch := omega) only [readByte_writeByte_other]

/-- Byte `k` of a write is byte `k` of the value. -/
theorem readByte_write_in {m : Memory} (a : Nat) (n : Width) (v : Word) (h : wf m = true) {k : Nat}
    (hk : k < n.bytes) : readByte (write m a n v) (a + k) = v.extractLsb' (8 * k) 8 := by
  have h1 := wf_writeByte a (v.extractLsb' 0 8) h
  have h2 := wf_writeByte (a + 1) (v.extractLsb' 8 8) h1
  have h3 := wf_writeByte (a + 2) (v.extractLsb' 16 8) h2
  cases n <;> simp only [Width.bytes] at hk <;> interval_cases k <;>
    simp (disch := omega) only [write, Nat.add_zero, Nat.mul_zero, Nat.mul_one, Nat.reduceMul,
      readByte_writeByte_other, readByte_writeByte_same _ _ h, readByte_writeByte_same _ _ h1,
      readByte_writeByte_same _ _ h2, readByte_writeByte_same _ _ h3]

/-- A word write is read back as it was written (20_memory.md R87). -/
theorem read_write_word {m : Memory} (a : Nat) (v : Word) (h : wf m = true) :
    read (write m a .word v) a .word = v := by
  have h1 := wf_writeByte a (v.extractLsb' 0 8) h
  have h2 := wf_writeByte (a + 1) (v.extractLsb' 8 8) h1
  have h3 := wf_writeByte (a + 2) (v.extractLsb' 16 8) h2
  simp only [read, write, readByte_writeByte_same _ _ h3]
  rw [readByte_writeByte_other _ _ (by omega), readByte_writeByte_same _ _ h2,
    readByte_writeByte_other _ _ (by omega), readByte_writeByte_other _ _ (by omega),
    readByte_writeByte_same _ _ h1, readByte_writeByte_other _ _ (by omega),
    readByte_writeByte_other _ _ (by omega), readByte_writeByte_other _ _ (by omega),
    readByte_writeByte_same _ _ h]
  ext i hi
  simp only [BitVec.getElem_append, BitVec.getElem_extractLsb']
  split
  · simp [BitVec.getLsbD_eq_getElem hi]
  · split
    · rw [BitVec.getLsbD_eq_getElem (by omega)]; congr 1; omega
    · split
      · rw [BitVec.getLsbD_eq_getElem (by omega)]; congr 1; omega
      · rw [BitVec.getLsbD_eq_getElem (by omega)]; congr 1; omega

end Memory

end Sys2Proof.Machine
end

