-- ==== Sys2Proof/Laws/State.lean ====
section
/-!
SUPPORT. One lemma per field per update of the state, so that no proof unfolds a record update.
-/

namespace Sys2Proof.Machine.State

/-! ## setPc -/

@[simp] theorem setPc_gpr (s : State) (v : Word) : (s.setPc v).gpr = s.gpr := rfl
@[simp] theorem setPc_pc (s : State) (v : Word) : (s.setPc v).pc = v := rfl
@[simp] theorem setPc_hi (s : State) (v : Word) : (s.setPc v).hi = s.hi := rfl
@[simp] theorem setPc_lo (s : State) (v : Word) : (s.setPc v).lo = s.lo := rfl
@[simp] theorem setPc_pl (s : State) (v : Word) : (s.setPc v).pl = s.pl := rfl
@[simp] theorem setPc_pb (s : State) (v : Word) : (s.setPc v).pb = s.pb := rfl
@[simp] theorem setPc_stage (s : State) (v : Word) : (s.setPc v).stage = s.stage := rfl
@[simp] theorem setPc_cop0 (s : State) (v : Word) : (s.setPc v).cop0 = s.cop0 := rfl
@[simp] theorem setPc_gte (s : State) (v : Word) : (s.setPc v).gte = s.gte := rfl
@[simp] theorem setPc_mem (s : State) (v : Word) : (s.setPc v).mem = s.mem := rfl
@[simp] theorem setPc_intc (s : State) (v : Word) : (s.setPc v).intc = s.intc := rfl
@[simp] theorem setPc_timers (s : State) (v : Word) : (s.setPc v).timers = s.timers := rfl
@[simp] theorem setPc_dma (s : State) (v : Word) : (s.setPc v).dma = s.dma := rfl
@[simp] theorem setPc_gpu (s : State) (v : Word) : (s.setPc v).gpu = s.gpu := rfl
@[simp] theorem setPc_cdc (s : State) (v : Word) : (s.setPc v).cdc = s.cdc := rfl
@[simp] theorem setPc_halt (s : State) (v : Word) : (s.setPc v).halt = s.halt := rfl
@[simp] theorem setPc_host (s : State) (v : Word) : (s.setPc v).host = s.host := rfl
@[simp] theorem setPc_params (s : State) (v : Word) : (s.setPc v).params = s.params := rfl

/-! ## setHi -/

@[simp] theorem setHi_gpr (s : State) (v : Word) : (s.setHi v).gpr = s.gpr := rfl
@[simp] theorem setHi_pc (s : State) (v : Word) : (s.setHi v).pc = s.pc := rfl
@[simp] theorem setHi_hi (s : State) (v : Word) : (s.setHi v).hi = v := rfl
@[simp] theorem setHi_lo (s : State) (v : Word) : (s.setHi v).lo = s.lo := rfl
@[simp] theorem setHi_pl (s : State) (v : Word) : (s.setHi v).pl = s.pl := rfl
@[simp] theorem setHi_pb (s : State) (v : Word) : (s.setHi v).pb = s.pb := rfl
@[simp] theorem setHi_stage (s : State) (v : Word) : (s.setHi v).stage = s.stage := rfl
@[simp] theorem setHi_cop0 (s : State) (v : Word) : (s.setHi v).cop0 = s.cop0 := rfl
@[simp] theorem setHi_gte (s : State) (v : Word) : (s.setHi v).gte = s.gte := rfl
@[simp] theorem setHi_mem (s : State) (v : Word) : (s.setHi v).mem = s.mem := rfl
@[simp] theorem setHi_intc (s : State) (v : Word) : (s.setHi v).intc = s.intc := rfl
@[simp] theorem setHi_timers (s : State) (v : Word) : (s.setHi v).timers = s.timers := rfl
@[simp] theorem setHi_dma (s : State) (v : Word) : (s.setHi v).dma = s.dma := rfl
@[simp] theorem setHi_gpu (s : State) (v : Word) : (s.setHi v).gpu = s.gpu := rfl
@[simp] theorem setHi_cdc (s : State) (v : Word) : (s.setHi v).cdc = s.cdc := rfl
@[simp] theorem setHi_halt (s : State) (v : Word) : (s.setHi v).halt = s.halt := rfl
@[simp] theorem setHi_host (s : State) (v : Word) : (s.setHi v).host = s.host := rfl
@[simp] theorem setHi_params (s : State) (v : Word) : (s.setHi v).params = s.params := rfl

/-! ## setLo -/

@[simp] theorem setLo_gpr (s : State) (v : Word) : (s.setLo v).gpr = s.gpr := rfl
@[simp] theorem setLo_pc (s : State) (v : Word) : (s.setLo v).pc = s.pc := rfl
@[simp] theorem setLo_hi (s : State) (v : Word) : (s.setLo v).hi = s.hi := rfl
@[simp] theorem setLo_lo (s : State) (v : Word) : (s.setLo v).lo = v := rfl
@[simp] theorem setLo_pl (s : State) (v : Word) : (s.setLo v).pl = s.pl := rfl
@[simp] theorem setLo_pb (s : State) (v : Word) : (s.setLo v).pb = s.pb := rfl
@[simp] theorem setLo_stage (s : State) (v : Word) : (s.setLo v).stage = s.stage := rfl
@[simp] theorem setLo_cop0 (s : State) (v : Word) : (s.setLo v).cop0 = s.cop0 := rfl
@[simp] theorem setLo_gte (s : State) (v : Word) : (s.setLo v).gte = s.gte := rfl
@[simp] theorem setLo_mem (s : State) (v : Word) : (s.setLo v).mem = s.mem := rfl
@[simp] theorem setLo_intc (s : State) (v : Word) : (s.setLo v).intc = s.intc := rfl
@[simp] theorem setLo_timers (s : State) (v : Word) : (s.setLo v).timers = s.timers := rfl
@[simp] theorem setLo_dma (s : State) (v : Word) : (s.setLo v).dma = s.dma := rfl
@[simp] theorem setLo_gpu (s : State) (v : Word) : (s.setLo v).gpu = s.gpu := rfl
@[simp] theorem setLo_cdc (s : State) (v : Word) : (s.setLo v).cdc = s.cdc := rfl
@[simp] theorem setLo_halt (s : State) (v : Word) : (s.setLo v).halt = s.halt := rfl
@[simp] theorem setLo_host (s : State) (v : Word) : (s.setLo v).host = s.host := rfl
@[simp] theorem setLo_params (s : State) (v : Word) : (s.setLo v).params = s.params := rfl

/-! ## setStage -/

@[simp] theorem setStage_gpr (s : State) (v : Stage) : (s.setStage v).gpr = s.gpr := rfl
@[simp] theorem setStage_pc (s : State) (v : Stage) : (s.setStage v).pc = s.pc := rfl
@[simp] theorem setStage_hi (s : State) (v : Stage) : (s.setStage v).hi = s.hi := rfl
@[simp] theorem setStage_lo (s : State) (v : Stage) : (s.setStage v).lo = s.lo := rfl
@[simp] theorem setStage_pl (s : State) (v : Stage) : (s.setStage v).pl = s.pl := rfl
@[simp] theorem setStage_pb (s : State) (v : Stage) : (s.setStage v).pb = s.pb := rfl
@[simp] theorem setStage_stage (s : State) (v : Stage) : (s.setStage v).stage = v := rfl
@[simp] theorem setStage_cop0 (s : State) (v : Stage) : (s.setStage v).cop0 = s.cop0 := rfl
@[simp] theorem setStage_gte (s : State) (v : Stage) : (s.setStage v).gte = s.gte := rfl
@[simp] theorem setStage_mem (s : State) (v : Stage) : (s.setStage v).mem = s.mem := rfl
@[simp] theorem setStage_intc (s : State) (v : Stage) : (s.setStage v).intc = s.intc := rfl
@[simp] theorem setStage_timers (s : State) (v : Stage) : (s.setStage v).timers = s.timers := rfl
@[simp] theorem setStage_dma (s : State) (v : Stage) : (s.setStage v).dma = s.dma := rfl
@[simp] theorem setStage_gpu (s : State) (v : Stage) : (s.setStage v).gpu = s.gpu := rfl
@[simp] theorem setStage_cdc (s : State) (v : Stage) : (s.setStage v).cdc = s.cdc := rfl
@[simp] theorem setStage_halt (s : State) (v : Stage) : (s.setStage v).halt = s.halt := rfl
@[simp] theorem setStage_host (s : State) (v : Stage) : (s.setStage v).host = s.host := rfl
@[simp] theorem setStage_params (s : State) (v : Stage) : (s.setStage v).params = s.params := rfl

/-! ## setCop0 -/

@[simp] theorem setCop0_gpr (s : State) (v : Cop0) : (s.setCop0 v).gpr = s.gpr := rfl
@[simp] theorem setCop0_pc (s : State) (v : Cop0) : (s.setCop0 v).pc = s.pc := rfl
@[simp] theorem setCop0_hi (s : State) (v : Cop0) : (s.setCop0 v).hi = s.hi := rfl
@[simp] theorem setCop0_lo (s : State) (v : Cop0) : (s.setCop0 v).lo = s.lo := rfl
@[simp] theorem setCop0_pl (s : State) (v : Cop0) : (s.setCop0 v).pl = s.pl := rfl
@[simp] theorem setCop0_pb (s : State) (v : Cop0) : (s.setCop0 v).pb = s.pb := rfl
@[simp] theorem setCop0_stage (s : State) (v : Cop0) : (s.setCop0 v).stage = s.stage := rfl
@[simp] theorem setCop0_cop0 (s : State) (v : Cop0) : (s.setCop0 v).cop0 = v := rfl
@[simp] theorem setCop0_gte (s : State) (v : Cop0) : (s.setCop0 v).gte = s.gte := rfl
@[simp] theorem setCop0_mem (s : State) (v : Cop0) : (s.setCop0 v).mem = s.mem := rfl
@[simp] theorem setCop0_intc (s : State) (v : Cop0) : (s.setCop0 v).intc = s.intc := rfl
@[simp] theorem setCop0_timers (s : State) (v : Cop0) : (s.setCop0 v).timers = s.timers := rfl
@[simp] theorem setCop0_dma (s : State) (v : Cop0) : (s.setCop0 v).dma = s.dma := rfl
@[simp] theorem setCop0_gpu (s : State) (v : Cop0) : (s.setCop0 v).gpu = s.gpu := rfl
@[simp] theorem setCop0_cdc (s : State) (v : Cop0) : (s.setCop0 v).cdc = s.cdc := rfl
@[simp] theorem setCop0_halt (s : State) (v : Cop0) : (s.setCop0 v).halt = s.halt := rfl
@[simp] theorem setCop0_host (s : State) (v : Cop0) : (s.setCop0 v).host = s.host := rfl
@[simp] theorem setCop0_params (s : State) (v : Cop0) : (s.setCop0 v).params = s.params := rfl

/-! ## setGte -/

@[simp] theorem setGte_gpr (s : State) (v : Gte) : (s.setGte v).gpr = s.gpr := rfl
@[simp] theorem setGte_pc (s : State) (v : Gte) : (s.setGte v).pc = s.pc := rfl
@[simp] theorem setGte_hi (s : State) (v : Gte) : (s.setGte v).hi = s.hi := rfl
@[simp] theorem setGte_lo (s : State) (v : Gte) : (s.setGte v).lo = s.lo := rfl
@[simp] theorem setGte_pl (s : State) (v : Gte) : (s.setGte v).pl = s.pl := rfl
@[simp] theorem setGte_pb (s : State) (v : Gte) : (s.setGte v).pb = s.pb := rfl
@[simp] theorem setGte_stage (s : State) (v : Gte) : (s.setGte v).stage = s.stage := rfl
@[simp] theorem setGte_cop0 (s : State) (v : Gte) : (s.setGte v).cop0 = s.cop0 := rfl
@[simp] theorem setGte_gte (s : State) (v : Gte) : (s.setGte v).gte = v := rfl
@[simp] theorem setGte_mem (s : State) (v : Gte) : (s.setGte v).mem = s.mem := rfl
@[simp] theorem setGte_intc (s : State) (v : Gte) : (s.setGte v).intc = s.intc := rfl
@[simp] theorem setGte_timers (s : State) (v : Gte) : (s.setGte v).timers = s.timers := rfl
@[simp] theorem setGte_dma (s : State) (v : Gte) : (s.setGte v).dma = s.dma := rfl
@[simp] theorem setGte_gpu (s : State) (v : Gte) : (s.setGte v).gpu = s.gpu := rfl
@[simp] theorem setGte_cdc (s : State) (v : Gte) : (s.setGte v).cdc = s.cdc := rfl
@[simp] theorem setGte_halt (s : State) (v : Gte) : (s.setGte v).halt = s.halt := rfl
@[simp] theorem setGte_host (s : State) (v : Gte) : (s.setGte v).host = s.host := rfl
@[simp] theorem setGte_params (s : State) (v : Gte) : (s.setGte v).params = s.params := rfl

/-! ## setMem -/

@[simp] theorem setMem_gpr (s : State) (v : Memory) : (s.setMem v).gpr = s.gpr := rfl
@[simp] theorem setMem_pc (s : State) (v : Memory) : (s.setMem v).pc = s.pc := rfl
@[simp] theorem setMem_hi (s : State) (v : Memory) : (s.setMem v).hi = s.hi := rfl
@[simp] theorem setMem_lo (s : State) (v : Memory) : (s.setMem v).lo = s.lo := rfl
@[simp] theorem setMem_pl (s : State) (v : Memory) : (s.setMem v).pl = s.pl := rfl
@[simp] theorem setMem_pb (s : State) (v : Memory) : (s.setMem v).pb = s.pb := rfl
@[simp] theorem setMem_stage (s : State) (v : Memory) : (s.setMem v).stage = s.stage := rfl
@[simp] theorem setMem_cop0 (s : State) (v : Memory) : (s.setMem v).cop0 = s.cop0 := rfl
@[simp] theorem setMem_gte (s : State) (v : Memory) : (s.setMem v).gte = s.gte := rfl
@[simp] theorem setMem_mem (s : State) (v : Memory) : (s.setMem v).mem = v := rfl
@[simp] theorem setMem_intc (s : State) (v : Memory) : (s.setMem v).intc = s.intc := rfl
@[simp] theorem setMem_timers (s : State) (v : Memory) : (s.setMem v).timers = s.timers := rfl
@[simp] theorem setMem_dma (s : State) (v : Memory) : (s.setMem v).dma = s.dma := rfl
@[simp] theorem setMem_gpu (s : State) (v : Memory) : (s.setMem v).gpu = s.gpu := rfl
@[simp] theorem setMem_cdc (s : State) (v : Memory) : (s.setMem v).cdc = s.cdc := rfl
@[simp] theorem setMem_halt (s : State) (v : Memory) : (s.setMem v).halt = s.halt := rfl
@[simp] theorem setMem_host (s : State) (v : Memory) : (s.setMem v).host = s.host := rfl
@[simp] theorem setMem_params (s : State) (v : Memory) : (s.setMem v).params = s.params := rfl

/-! ## setIntc -/

@[simp] theorem setIntc_gpr (s : State) (v : Intc) : (s.setIntc v).gpr = s.gpr := rfl
@[simp] theorem setIntc_pc (s : State) (v : Intc) : (s.setIntc v).pc = s.pc := rfl
@[simp] theorem setIntc_hi (s : State) (v : Intc) : (s.setIntc v).hi = s.hi := rfl
@[simp] theorem setIntc_lo (s : State) (v : Intc) : (s.setIntc v).lo = s.lo := rfl
@[simp] theorem setIntc_pl (s : State) (v : Intc) : (s.setIntc v).pl = s.pl := rfl
@[simp] theorem setIntc_pb (s : State) (v : Intc) : (s.setIntc v).pb = s.pb := rfl
@[simp] theorem setIntc_stage (s : State) (v : Intc) : (s.setIntc v).stage = s.stage := rfl
@[simp] theorem setIntc_cop0 (s : State) (v : Intc) : (s.setIntc v).cop0 = s.cop0 := rfl
@[simp] theorem setIntc_gte (s : State) (v : Intc) : (s.setIntc v).gte = s.gte := rfl
@[simp] theorem setIntc_mem (s : State) (v : Intc) : (s.setIntc v).mem = s.mem := rfl
@[simp] theorem setIntc_intc (s : State) (v : Intc) : (s.setIntc v).intc = v := rfl
@[simp] theorem setIntc_timers (s : State) (v : Intc) : (s.setIntc v).timers = s.timers := rfl
@[simp] theorem setIntc_dma (s : State) (v : Intc) : (s.setIntc v).dma = s.dma := rfl
@[simp] theorem setIntc_gpu (s : State) (v : Intc) : (s.setIntc v).gpu = s.gpu := rfl
@[simp] theorem setIntc_cdc (s : State) (v : Intc) : (s.setIntc v).cdc = s.cdc := rfl
@[simp] theorem setIntc_halt (s : State) (v : Intc) : (s.setIntc v).halt = s.halt := rfl
@[simp] theorem setIntc_host (s : State) (v : Intc) : (s.setIntc v).host = s.host := rfl
@[simp] theorem setIntc_params (s : State) (v : Intc) : (s.setIntc v).params = s.params := rfl

/-! ## setTimers -/

@[simp] theorem setTimers_gpr (s : State) (v : Timers) : (s.setTimers v).gpr = s.gpr := rfl
@[simp] theorem setTimers_pc (s : State) (v : Timers) : (s.setTimers v).pc = s.pc := rfl
@[simp] theorem setTimers_hi (s : State) (v : Timers) : (s.setTimers v).hi = s.hi := rfl
@[simp] theorem setTimers_lo (s : State) (v : Timers) : (s.setTimers v).lo = s.lo := rfl
@[simp] theorem setTimers_pl (s : State) (v : Timers) : (s.setTimers v).pl = s.pl := rfl
@[simp] theorem setTimers_pb (s : State) (v : Timers) : (s.setTimers v).pb = s.pb := rfl
@[simp] theorem setTimers_stage (s : State) (v : Timers) : (s.setTimers v).stage = s.stage := rfl
@[simp] theorem setTimers_cop0 (s : State) (v : Timers) : (s.setTimers v).cop0 = s.cop0 := rfl
@[simp] theorem setTimers_gte (s : State) (v : Timers) : (s.setTimers v).gte = s.gte := rfl
@[simp] theorem setTimers_mem (s : State) (v : Timers) : (s.setTimers v).mem = s.mem := rfl
@[simp] theorem setTimers_intc (s : State) (v : Timers) : (s.setTimers v).intc = s.intc := rfl
@[simp] theorem setTimers_timers (s : State) (v : Timers) : (s.setTimers v).timers = v := rfl
@[simp] theorem setTimers_dma (s : State) (v : Timers) : (s.setTimers v).dma = s.dma := rfl
@[simp] theorem setTimers_gpu (s : State) (v : Timers) : (s.setTimers v).gpu = s.gpu := rfl
@[simp] theorem setTimers_cdc (s : State) (v : Timers) : (s.setTimers v).cdc = s.cdc := rfl
@[simp] theorem setTimers_halt (s : State) (v : Timers) : (s.setTimers v).halt = s.halt := rfl
@[simp] theorem setTimers_host (s : State) (v : Timers) : (s.setTimers v).host = s.host := rfl
@[simp] theorem setTimers_params (s : State) (v : Timers) : (s.setTimers v).params = s.params := rfl

/-! ## setDma -/

@[simp] theorem setDma_gpr (s : State) (v : Dma) : (s.setDma v).gpr = s.gpr := rfl
@[simp] theorem setDma_pc (s : State) (v : Dma) : (s.setDma v).pc = s.pc := rfl
@[simp] theorem setDma_hi (s : State) (v : Dma) : (s.setDma v).hi = s.hi := rfl
@[simp] theorem setDma_lo (s : State) (v : Dma) : (s.setDma v).lo = s.lo := rfl
@[simp] theorem setDma_pl (s : State) (v : Dma) : (s.setDma v).pl = s.pl := rfl
@[simp] theorem setDma_pb (s : State) (v : Dma) : (s.setDma v).pb = s.pb := rfl
@[simp] theorem setDma_stage (s : State) (v : Dma) : (s.setDma v).stage = s.stage := rfl
@[simp] theorem setDma_cop0 (s : State) (v : Dma) : (s.setDma v).cop0 = s.cop0 := rfl
@[simp] theorem setDma_gte (s : State) (v : Dma) : (s.setDma v).gte = s.gte := rfl
@[simp] theorem setDma_mem (s : State) (v : Dma) : (s.setDma v).mem = s.mem := rfl
@[simp] theorem setDma_intc (s : State) (v : Dma) : (s.setDma v).intc = s.intc := rfl
@[simp] theorem setDma_timers (s : State) (v : Dma) : (s.setDma v).timers = s.timers := rfl
@[simp] theorem setDma_dma (s : State) (v : Dma) : (s.setDma v).dma = v := rfl
@[simp] theorem setDma_gpu (s : State) (v : Dma) : (s.setDma v).gpu = s.gpu := rfl
@[simp] theorem setDma_cdc (s : State) (v : Dma) : (s.setDma v).cdc = s.cdc := rfl
@[simp] theorem setDma_halt (s : State) (v : Dma) : (s.setDma v).halt = s.halt := rfl
@[simp] theorem setDma_host (s : State) (v : Dma) : (s.setDma v).host = s.host := rfl
@[simp] theorem setDma_params (s : State) (v : Dma) : (s.setDma v).params = s.params := rfl

/-! ## setGpu -/

@[simp] theorem setGpu_gpr (s : State) (v : Gpu) : (s.setGpu v).gpr = s.gpr := rfl
@[simp] theorem setGpu_pc (s : State) (v : Gpu) : (s.setGpu v).pc = s.pc := rfl
@[simp] theorem setGpu_hi (s : State) (v : Gpu) : (s.setGpu v).hi = s.hi := rfl
@[simp] theorem setGpu_lo (s : State) (v : Gpu) : (s.setGpu v).lo = s.lo := rfl
@[simp] theorem setGpu_pl (s : State) (v : Gpu) : (s.setGpu v).pl = s.pl := rfl
@[simp] theorem setGpu_pb (s : State) (v : Gpu) : (s.setGpu v).pb = s.pb := rfl
@[simp] theorem setGpu_stage (s : State) (v : Gpu) : (s.setGpu v).stage = s.stage := rfl
@[simp] theorem setGpu_cop0 (s : State) (v : Gpu) : (s.setGpu v).cop0 = s.cop0 := rfl
@[simp] theorem setGpu_gte (s : State) (v : Gpu) : (s.setGpu v).gte = s.gte := rfl
@[simp] theorem setGpu_mem (s : State) (v : Gpu) : (s.setGpu v).mem = s.mem := rfl
@[simp] theorem setGpu_intc (s : State) (v : Gpu) : (s.setGpu v).intc = s.intc := rfl
@[simp] theorem setGpu_timers (s : State) (v : Gpu) : (s.setGpu v).timers = s.timers := rfl
@[simp] theorem setGpu_dma (s : State) (v : Gpu) : (s.setGpu v).dma = s.dma := rfl
@[simp] theorem setGpu_gpu (s : State) (v : Gpu) : (s.setGpu v).gpu = v := rfl
@[simp] theorem setGpu_cdc (s : State) (v : Gpu) : (s.setGpu v).cdc = s.cdc := rfl
@[simp] theorem setGpu_halt (s : State) (v : Gpu) : (s.setGpu v).halt = s.halt := rfl
@[simp] theorem setGpu_host (s : State) (v : Gpu) : (s.setGpu v).host = s.host := rfl
@[simp] theorem setGpu_params (s : State) (v : Gpu) : (s.setGpu v).params = s.params := rfl

/-! ## setCdc -/

@[simp] theorem setCdc_gpr (s : State) (v : Cdc) : (s.setCdc v).gpr = s.gpr := rfl
@[simp] theorem setCdc_pc (s : State) (v : Cdc) : (s.setCdc v).pc = s.pc := rfl
@[simp] theorem setCdc_hi (s : State) (v : Cdc) : (s.setCdc v).hi = s.hi := rfl
@[simp] theorem setCdc_lo (s : State) (v : Cdc) : (s.setCdc v).lo = s.lo := rfl
@[simp] theorem setCdc_pl (s : State) (v : Cdc) : (s.setCdc v).pl = s.pl := rfl
@[simp] theorem setCdc_pb (s : State) (v : Cdc) : (s.setCdc v).pb = s.pb := rfl
@[simp] theorem setCdc_stage (s : State) (v : Cdc) : (s.setCdc v).stage = s.stage := rfl
@[simp] theorem setCdc_cop0 (s : State) (v : Cdc) : (s.setCdc v).cop0 = s.cop0 := rfl
@[simp] theorem setCdc_gte (s : State) (v : Cdc) : (s.setCdc v).gte = s.gte := rfl
@[simp] theorem setCdc_mem (s : State) (v : Cdc) : (s.setCdc v).mem = s.mem := rfl
@[simp] theorem setCdc_intc (s : State) (v : Cdc) : (s.setCdc v).intc = s.intc := rfl
@[simp] theorem setCdc_timers (s : State) (v : Cdc) : (s.setCdc v).timers = s.timers := rfl
@[simp] theorem setCdc_dma (s : State) (v : Cdc) : (s.setCdc v).dma = s.dma := rfl
@[simp] theorem setCdc_gpu (s : State) (v : Cdc) : (s.setCdc v).gpu = s.gpu := rfl
@[simp] theorem setCdc_cdc (s : State) (v : Cdc) : (s.setCdc v).cdc = v := rfl
@[simp] theorem setCdc_halt (s : State) (v : Cdc) : (s.setCdc v).halt = s.halt := rfl
@[simp] theorem setCdc_host (s : State) (v : Cdc) : (s.setCdc v).host = s.host := rfl
@[simp] theorem setCdc_params (s : State) (v : Cdc) : (s.setCdc v).params = s.params := rfl

/-! ## setHalt -/

@[simp] theorem setHalt_gpr (s : State) (v : Option HaltRecord) : (s.setHalt v).gpr = s.gpr := rfl
@[simp] theorem setHalt_pc (s : State) (v : Option HaltRecord) : (s.setHalt v).pc = s.pc := rfl
@[simp] theorem setHalt_hi (s : State) (v : Option HaltRecord) : (s.setHalt v).hi = s.hi := rfl
@[simp] theorem setHalt_lo (s : State) (v : Option HaltRecord) : (s.setHalt v).lo = s.lo := rfl
@[simp] theorem setHalt_pl (s : State) (v : Option HaltRecord) : (s.setHalt v).pl = s.pl := rfl
@[simp] theorem setHalt_pb (s : State) (v : Option HaltRecord) : (s.setHalt v).pb = s.pb := rfl
@[simp] theorem setHalt_stage (s : State) (v : Option HaltRecord) : (s.setHalt v).stage = s.stage := rfl
@[simp] theorem setHalt_cop0 (s : State) (v : Option HaltRecord) : (s.setHalt v).cop0 = s.cop0 := rfl
@[simp] theorem setHalt_gte (s : State) (v : Option HaltRecord) : (s.setHalt v).gte = s.gte := rfl
@[simp] theorem setHalt_mem (s : State) (v : Option HaltRecord) : (s.setHalt v).mem = s.mem := rfl
@[simp] theorem setHalt_intc (s : State) (v : Option HaltRecord) : (s.setHalt v).intc = s.intc := rfl
@[simp] theorem setHalt_timers (s : State) (v : Option HaltRecord) : (s.setHalt v).timers = s.timers := rfl
@[simp] theorem setHalt_dma (s : State) (v : Option HaltRecord) : (s.setHalt v).dma = s.dma := rfl
@[simp] theorem setHalt_gpu (s : State) (v : Option HaltRecord) : (s.setHalt v).gpu = s.gpu := rfl
@[simp] theorem setHalt_cdc (s : State) (v : Option HaltRecord) : (s.setHalt v).cdc = s.cdc := rfl
@[simp] theorem setHalt_halt (s : State) (v : Option HaltRecord) : (s.setHalt v).halt = v := rfl
@[simp] theorem setHalt_host (s : State) (v : Option HaltRecord) : (s.setHalt v).host = s.host := rfl
@[simp] theorem setHalt_params (s : State) (v : Option HaltRecord) : (s.setHalt v).params = s.params := rfl

/-! ## setHost -/

@[simp] theorem setHost_gpr (s : State) (v : HostSide) : (s.setHost v).gpr = s.gpr := rfl
@[simp] theorem setHost_pc (s : State) (v : HostSide) : (s.setHost v).pc = s.pc := rfl
@[simp] theorem setHost_hi (s : State) (v : HostSide) : (s.setHost v).hi = s.hi := rfl
@[simp] theorem setHost_lo (s : State) (v : HostSide) : (s.setHost v).lo = s.lo := rfl
@[simp] theorem setHost_pl (s : State) (v : HostSide) : (s.setHost v).pl = s.pl := rfl
@[simp] theorem setHost_pb (s : State) (v : HostSide) : (s.setHost v).pb = s.pb := rfl
@[simp] theorem setHost_stage (s : State) (v : HostSide) : (s.setHost v).stage = s.stage := rfl
@[simp] theorem setHost_cop0 (s : State) (v : HostSide) : (s.setHost v).cop0 = s.cop0 := rfl
@[simp] theorem setHost_gte (s : State) (v : HostSide) : (s.setHost v).gte = s.gte := rfl
@[simp] theorem setHost_mem (s : State) (v : HostSide) : (s.setHost v).mem = s.mem := rfl
@[simp] theorem setHost_intc (s : State) (v : HostSide) : (s.setHost v).intc = s.intc := rfl
@[simp] theorem setHost_timers (s : State) (v : HostSide) : (s.setHost v).timers = s.timers := rfl
@[simp] theorem setHost_dma (s : State) (v : HostSide) : (s.setHost v).dma = s.dma := rfl
@[simp] theorem setHost_gpu (s : State) (v : HostSide) : (s.setHost v).gpu = s.gpu := rfl
@[simp] theorem setHost_cdc (s : State) (v : HostSide) : (s.setHost v).cdc = s.cdc := rfl
@[simp] theorem setHost_halt (s : State) (v : HostSide) : (s.setHost v).halt = s.halt := rfl
@[simp] theorem setHost_host (s : State) (v : HostSide) : (s.setHost v).host = v := rfl
@[simp] theorem setHost_params (s : State) (v : HostSide) : (s.setHost v).params = s.params := rfl

/-! ## setGpr -/

@[simp] theorem setGpr_gpr (s : State) (r : RegNum) (v : Word) : (s.setGpr r v).gpr = s.gprWith r v := rfl
@[simp] theorem setGpr_pc (s : State) (r : RegNum) (v : Word) : (s.setGpr r v).pc = s.pc := rfl
@[simp] theorem setGpr_hi (s : State) (r : RegNum) (v : Word) : (s.setGpr r v).hi = s.hi := rfl
@[simp] theorem setGpr_lo (s : State) (r : RegNum) (v : Word) : (s.setGpr r v).lo = s.lo := rfl
@[simp] theorem setGpr_pl (s : State) (r : RegNum) (v : Word) : (s.setGpr r v).pl = s.pl := rfl
@[simp] theorem setGpr_pb (s : State) (r : RegNum) (v : Word) : (s.setGpr r v).pb = s.pb := rfl
@[simp] theorem setGpr_stage (s : State) (r : RegNum) (v : Word) : (s.setGpr r v).stage = s.stage := rfl
@[simp] theorem setGpr_cop0 (s : State) (r : RegNum) (v : Word) : (s.setGpr r v).cop0 = s.cop0 := rfl
@[simp] theorem setGpr_gte (s : State) (r : RegNum) (v : Word) : (s.setGpr r v).gte = s.gte := rfl
@[simp] theorem setGpr_mem (s : State) (r : RegNum) (v : Word) : (s.setGpr r v).mem = s.mem := rfl
@[simp] theorem setGpr_intc (s : State) (r : RegNum) (v : Word) : (s.setGpr r v).intc = s.intc := rfl
@[simp] theorem setGpr_timers (s : State) (r : RegNum) (v : Word) : (s.setGpr r v).timers = s.timers := rfl
@[simp] theorem setGpr_dma (s : State) (r : RegNum) (v : Word) : (s.setGpr r v).dma = s.dma := rfl
@[simp] theorem setGpr_gpu (s : State) (r : RegNum) (v : Word) : (s.setGpr r v).gpu = s.gpu := rfl
@[simp] theorem setGpr_cdc (s : State) (r : RegNum) (v : Word) : (s.setGpr r v).cdc = s.cdc := rfl
@[simp] theorem setGpr_halt (s : State) (r : RegNum) (v : Word) : (s.setGpr r v).halt = s.halt := rfl
@[simp] theorem setGpr_host (s : State) (r : RegNum) (v : Word) : (s.setGpr r v).host = s.host := rfl
@[simp] theorem setGpr_params (s : State) (r : RegNum) (v : Word) : (s.setGpr r v).params = s.params := rfl

/-! ## setReg -/

@[simp] theorem setReg_gpr (s : State) (r : RegNum) (v : Word) : (s.setReg r v).gpr = s.gprWith r v := rfl
@[simp] theorem setReg_pc (s : State) (r : RegNum) (v : Word) : (s.setReg r v).pc = s.pc := rfl
@[simp] theorem setReg_hi (s : State) (r : RegNum) (v : Word) : (s.setReg r v).hi = s.hi := rfl
@[simp] theorem setReg_lo (s : State) (r : RegNum) (v : Word) : (s.setReg r v).lo = s.lo := rfl
@[simp] theorem setReg_pl (s : State) (r : RegNum) (v : Word) : (s.setReg r v).pl = s.pl := rfl
@[simp] theorem setReg_pb (s : State) (r : RegNum) (v : Word) : (s.setReg r v).pb = s.pb := rfl
@[simp] theorem setReg_stage (s : State) (r : RegNum) (v : Word) : (s.setReg r v).stage = { s.stage with wrote := some r } := rfl
@[simp] theorem setReg_cop0 (s : State) (r : RegNum) (v : Word) : (s.setReg r v).cop0 = s.cop0 := rfl
@[simp] theorem setReg_gte (s : State) (r : RegNum) (v : Word) : (s.setReg r v).gte = s.gte := rfl
@[simp] theorem setReg_mem (s : State) (r : RegNum) (v : Word) : (s.setReg r v).mem = s.mem := rfl
@[simp] theorem setReg_intc (s : State) (r : RegNum) (v : Word) : (s.setReg r v).intc = s.intc := rfl
@[simp] theorem setReg_timers (s : State) (r : RegNum) (v : Word) : (s.setReg r v).timers = s.timers := rfl
@[simp] theorem setReg_dma (s : State) (r : RegNum) (v : Word) : (s.setReg r v).dma = s.dma := rfl
@[simp] theorem setReg_gpu (s : State) (r : RegNum) (v : Word) : (s.setReg r v).gpu = s.gpu := rfl
@[simp] theorem setReg_cdc (s : State) (r : RegNum) (v : Word) : (s.setReg r v).cdc = s.cdc := rfl
@[simp] theorem setReg_halt (s : State) (r : RegNum) (v : Word) : (s.setReg r v).halt = s.halt := rfl
@[simp] theorem setReg_host (s : State) (r : RegNum) (v : Word) : (s.setReg r v).host = s.host := rfl
@[simp] theorem setReg_params (s : State) (r : RegNum) (v : Word) : (s.setReg r v).params = s.params := rfl

/-! ## postLoad -/

@[simp] theorem postLoad_gpr (s : State) (r : RegNum) (v : Word) : (s.postLoad r v).gpr = s.gpr := rfl
@[simp] theorem postLoad_pc (s : State) (r : RegNum) (v : Word) : (s.postLoad r v).pc = s.pc := rfl
@[simp] theorem postLoad_hi (s : State) (r : RegNum) (v : Word) : (s.postLoad r v).hi = s.hi := rfl
@[simp] theorem postLoad_lo (s : State) (r : RegNum) (v : Word) : (s.postLoad r v).lo = s.lo := rfl
@[simp] theorem postLoad_pl (s : State) (r : RegNum) (v : Word) : (s.postLoad r v).pl = some (r, v) := rfl
@[simp] theorem postLoad_pb (s : State) (r : RegNum) (v : Word) : (s.postLoad r v).pb = s.pb := rfl
@[simp] theorem postLoad_stage (s : State) (r : RegNum) (v : Word) : (s.postLoad r v).stage = s.stage := rfl
@[simp] theorem postLoad_cop0 (s : State) (r : RegNum) (v : Word) : (s.postLoad r v).cop0 = s.cop0 := rfl
@[simp] theorem postLoad_gte (s : State) (r : RegNum) (v : Word) : (s.postLoad r v).gte = s.gte := rfl
@[simp] theorem postLoad_mem (s : State) (r : RegNum) (v : Word) : (s.postLoad r v).mem = s.mem := rfl
@[simp] theorem postLoad_intc (s : State) (r : RegNum) (v : Word) : (s.postLoad r v).intc = s.intc := rfl
@[simp] theorem postLoad_timers (s : State) (r : RegNum) (v : Word) : (s.postLoad r v).timers = s.timers := rfl
@[simp] theorem postLoad_dma (s : State) (r : RegNum) (v : Word) : (s.postLoad r v).dma = s.dma := rfl
@[simp] theorem postLoad_gpu (s : State) (r : RegNum) (v : Word) : (s.postLoad r v).gpu = s.gpu := rfl
@[simp] theorem postLoad_cdc (s : State) (r : RegNum) (v : Word) : (s.postLoad r v).cdc = s.cdc := rfl
@[simp] theorem postLoad_halt (s : State) (r : RegNum) (v : Word) : (s.postLoad r v).halt = s.halt := rfl
@[simp] theorem postLoad_host (s : State) (r : RegNum) (v : Word) : (s.postLoad r v).host = s.host := rfl
@[simp] theorem postLoad_params (s : State) (r : RegNum) (v : Word) : (s.postLoad r v).params = s.params := rfl

/-! ## postBranch -/

@[simp] theorem postBranch_gpr (s : State) (t : Word) : (s.postBranch t).gpr = s.gpr := rfl
@[simp] theorem postBranch_pc (s : State) (t : Word) : (s.postBranch t).pc = s.pc := rfl
@[simp] theorem postBranch_hi (s : State) (t : Word) : (s.postBranch t).hi = s.hi := rfl
@[simp] theorem postBranch_lo (s : State) (t : Word) : (s.postBranch t).lo = s.lo := rfl
@[simp] theorem postBranch_pl (s : State) (t : Word) : (s.postBranch t).pl = s.pl := rfl
@[simp] theorem postBranch_pb (s : State) (t : Word) : (s.postBranch t).pb = some t := rfl
@[simp] theorem postBranch_stage (s : State) (t : Word) : (s.postBranch t).stage = s.stage := rfl
@[simp] theorem postBranch_cop0 (s : State) (t : Word) : (s.postBranch t).cop0 = s.cop0 := rfl
@[simp] theorem postBranch_gte (s : State) (t : Word) : (s.postBranch t).gte = s.gte := rfl
@[simp] theorem postBranch_mem (s : State) (t : Word) : (s.postBranch t).mem = s.mem := rfl
@[simp] theorem postBranch_intc (s : State) (t : Word) : (s.postBranch t).intc = s.intc := rfl
@[simp] theorem postBranch_timers (s : State) (t : Word) : (s.postBranch t).timers = s.timers := rfl
@[simp] theorem postBranch_dma (s : State) (t : Word) : (s.postBranch t).dma = s.dma := rfl
@[simp] theorem postBranch_gpu (s : State) (t : Word) : (s.postBranch t).gpu = s.gpu := rfl
@[simp] theorem postBranch_cdc (s : State) (t : Word) : (s.postBranch t).cdc = s.cdc := rfl
@[simp] theorem postBranch_halt (s : State) (t : Word) : (s.postBranch t).halt = s.halt := rfl
@[simp] theorem postBranch_host (s : State) (t : Word) : (s.postBranch t).host = s.host := rfl
@[simp] theorem postBranch_params (s : State) (t : Word) : (s.postBranch t).params = s.params := rfl

/-! ## raiseIrq -/

@[simp] theorem raiseIrq_gpr (s : State) (n : Nat) (on : Bool) : (s.raiseIrq n on).gpr = s.gpr := rfl
@[simp] theorem raiseIrq_pc (s : State) (n : Nat) (on : Bool) : (s.raiseIrq n on).pc = s.pc := rfl
@[simp] theorem raiseIrq_hi (s : State) (n : Nat) (on : Bool) : (s.raiseIrq n on).hi = s.hi := rfl
@[simp] theorem raiseIrq_lo (s : State) (n : Nat) (on : Bool) : (s.raiseIrq n on).lo = s.lo := rfl
@[simp] theorem raiseIrq_pl (s : State) (n : Nat) (on : Bool) : (s.raiseIrq n on).pl = s.pl := rfl
@[simp] theorem raiseIrq_pb (s : State) (n : Nat) (on : Bool) : (s.raiseIrq n on).pb = s.pb := rfl
@[simp] theorem raiseIrq_stage (s : State) (n : Nat) (on : Bool) : (s.raiseIrq n on).stage = s.stage := rfl
@[simp] theorem raiseIrq_cop0 (s : State) (n : Nat) (on : Bool) : (s.raiseIrq n on).cop0 = s.cop0 := rfl
@[simp] theorem raiseIrq_gte (s : State) (n : Nat) (on : Bool) : (s.raiseIrq n on).gte = s.gte := rfl
@[simp] theorem raiseIrq_mem (s : State) (n : Nat) (on : Bool) : (s.raiseIrq n on).mem = s.mem := rfl
@[simp] theorem raiseIrq_intc (s : State) (n : Nat) (on : Bool) : (s.raiseIrq n on).intc = { s.intc with istat := s.intc.istat ||| (BitVec.ofBool on).setWidth 11 <<< n } := rfl
@[simp] theorem raiseIrq_timers (s : State) (n : Nat) (on : Bool) : (s.raiseIrq n on).timers = s.timers := rfl
@[simp] theorem raiseIrq_dma (s : State) (n : Nat) (on : Bool) : (s.raiseIrq n on).dma = s.dma := rfl
@[simp] theorem raiseIrq_gpu (s : State) (n : Nat) (on : Bool) : (s.raiseIrq n on).gpu = s.gpu := rfl
@[simp] theorem raiseIrq_cdc (s : State) (n : Nat) (on : Bool) : (s.raiseIrq n on).cdc = s.cdc := rfl
@[simp] theorem raiseIrq_halt (s : State) (n : Nat) (on : Bool) : (s.raiseIrq n on).halt = s.halt := rfl
@[simp] theorem raiseIrq_host (s : State) (n : Nat) (on : Bool) : (s.raiseIrq n on).host = s.host := rfl
@[simp] theorem raiseIrq_params (s : State) (n : Nat) (on : Bool) : (s.raiseIrq n on).params = s.params := rfl

/-! ## latch -/

@[simp] theorem latch_gpr (s : State) : (s.latch).gpr = s.gpr := rfl
@[simp] theorem latch_pc (s : State) : (s.latch).pc = s.pc := rfl
@[simp] theorem latch_hi (s : State) : (s.latch).hi = s.hi := rfl
@[simp] theorem latch_lo (s : State) : (s.latch).lo = s.lo := rfl
@[simp] theorem latch_pl (s : State) : (s.latch).pl = none := rfl
@[simp] theorem latch_pb (s : State) : (s.latch).pb = none := rfl
@[simp] theorem latch_stage (s : State) : (s.latch).stage = ⟨s.pl, s.pb, false, none, ~~~s.intc.istat⟩ := rfl
@[simp] theorem latch_cop0 (s : State) : (s.latch).cop0 = s.cop0 := rfl
@[simp] theorem latch_gte (s : State) : (s.latch).gte = s.gte := rfl
@[simp] theorem latch_mem (s : State) : (s.latch).mem = s.mem := rfl
@[simp] theorem latch_intc (s : State) : (s.latch).intc = s.intc := rfl
@[simp] theorem latch_timers (s : State) : (s.latch).timers = s.timers := rfl
@[simp] theorem latch_dma (s : State) : (s.latch).dma = s.dma := rfl
@[simp] theorem latch_gpu (s : State) : (s.latch).gpu = s.gpu := rfl
@[simp] theorem latch_cdc (s : State) : (s.latch).cdc = s.cdc := rfl
@[simp] theorem latch_halt (s : State) : (s.latch).halt = s.halt := rfl
@[simp] theorem latch_host (s : State) : (s.latch).host = s.host := rfl
@[simp] theorem latch_params (s : State) : (s.latch).params = s.params := rfl

end Sys2Proof.Machine.State

namespace Sys2Proof.Machine

/-! ## Entering an exception -/

@[simp] theorem enterException_gpr (e : Exc) (epc : Word) (bd : Bool) (s : State) :
    (enterException e epc bd s).gpr = s.gpr := rfl
@[simp] theorem enterException_pc (e : Exc) (epc : Word) (bd : Bool) (s : State) :
    (enterException e epc bd s).pc = s.vector := rfl
@[simp] theorem enterException_hi (e : Exc) (epc : Word) (bd : Bool) (s : State) :
    (enterException e epc bd s).hi = s.hi := rfl
@[simp] theorem enterException_lo (e : Exc) (epc : Word) (bd : Bool) (s : State) :
    (enterException e epc bd s).lo = s.lo := rfl
@[simp] theorem enterException_pl (e : Exc) (epc : Word) (bd : Bool) (s : State) :
    (enterException e epc bd s).pl = s.pl := rfl
@[simp] theorem enterException_pb (e : Exc) (epc : Word) (bd : Bool) (s : State) :
    (enterException e epc bd s).pb = none := rfl
@[simp] theorem enterException_stage (e : Exc) (epc : Word) (bd : Bool) (s : State) :
    (enterException e epc bd s).stage = s.stage := rfl
@[simp] theorem enterException_cop0 (e : Exc) (epc : Word) (bd : Bool) (s : State) :
    (enterException e epc bd s).cop0 = 
      { s.cop0 with
        sr := pushSr s.cop0.sr
        cause := entryCause s.cop0.cause e.code bd
        epc := epc
        badVaddr := e.badvaddr.getD s.cop0.badVaddr } := rfl
@[simp] theorem enterException_gte (e : Exc) (epc : Word) (bd : Bool) (s : State) :
    (enterException e epc bd s).gte = s.gte := rfl
@[simp] theorem enterException_mem (e : Exc) (epc : Word) (bd : Bool) (s : State) :
    (enterException e epc bd s).mem = s.mem := rfl
@[simp] theorem enterException_intc (e : Exc) (epc : Word) (bd : Bool) (s : State) :
    (enterException e epc bd s).intc = s.intc := rfl
@[simp] theorem enterException_timers (e : Exc) (epc : Word) (bd : Bool) (s : State) :
    (enterException e epc bd s).timers = s.timers := rfl
@[simp] theorem enterException_dma (e : Exc) (epc : Word) (bd : Bool) (s : State) :
    (enterException e epc bd s).dma = s.dma := rfl
@[simp] theorem enterException_gpu (e : Exc) (epc : Word) (bd : Bool) (s : State) :
    (enterException e epc bd s).gpu = s.gpu := rfl
@[simp] theorem enterException_cdc (e : Exc) (epc : Word) (bd : Bool) (s : State) :
    (enterException e epc bd s).cdc = s.cdc := rfl
@[simp] theorem enterException_halt (e : Exc) (epc : Word) (bd : Bool) (s : State) :
    (enterException e epc bd s).halt = s.halt := rfl
@[simp] theorem enterException_host (e : Exc) (epc : Word) (bd : Bool) (s : State) :
    (enterException e epc bd s).host = s.host := rfl
@[simp] theorem enterException_params (e : Exc) (epc : Word) (bd : Bool) (s : State) :
    (enterException e epc bd s).params = s.params := rfl

/-! ## Reading registers after an update -/

/-- Register 0 reads as 0 in every state. -/
@[simp] theorem reg_zero (s : State) : s.reg 0#5 = 0#32 := rfl

/-- Reading depends on the register file alone. -/
theorem reg_of_gpr {s t : State} (h : t.gpr = s.gpr) (r : RegNum) : t.reg r = s.reg r := by
  unfold State.reg; rw [h]

/-- A register write is read back, but from register 0. -/
theorem reg_write_same {s t : State} {r : RegNum} {v : Word} (h : t.gpr = s.gprWith r v) (hr : r ≠ 0) :
    t.reg r = v := by
  unfold State.reg; rw [if_neg hr]; simp only [h, State.gprWith, if_neg hr, Vector.getElem_set_self]

/-- A register write leaves every other register alone. -/
theorem reg_write_other {s t : State} {r q : RegNum} {v : Word} (h : t.gpr = s.gprWith r v)
    (hq : q ≠ r) : t.reg q = s.reg q := by
  have hne : r.toNat ≠ q.toNat := fun e => hq (BitVec.eq_of_toNat_eq e.symm)
  by_cases hr : r = 0 <;> by_cases hz : q = 0 <;> simp_all [State.reg, State.gprWith]

/-- A write to register 0 is discarded. -/
@[simp] theorem gprWith_zero (s : State) (v : Word) : s.gprWith 0#5 v = s.gpr := by
  simp [State.gprWith]

end Sys2Proof.Machine
end

