-- ==== Sys2Proof/Laws/Ops.lean ====
section
/-!
SUPPORT. One lemma per shared operation: what follows a next state, what a loop keeps, what taking an
exception leaves, what a bus access can do.
-/

namespace Sys2Proof.Machine

/-! ## Outcomes and loops -/

/-- A sequence answers next exactly when both parts do. -/
@[simp] theorem andThen_next {o : Out} {f : State → Out} {t : State} :
    andThen o f = .next t ↔ ∃ u, o = .next u ∧ f u = .next t := by
  cases o <;> simp [andThen]

/-- What every round of a loop over outcomes keeps, the loop keeps. -/
theorem repeatOut_keeps {P : State → Prop} {f : Nat → State → Out} {n : Nat}
    (hf : ∀ k u v, k < n → P u → f k u = .next v → P v) {s t : State} (hs : P s)
    (h : repeatOut n f s = .next t) : P t := by
  induction n generalizing t with
  | zero => cases h; exact hs
  | succ n ih =>
    simp only [repeatOut] at h
    split at h
    · rename_i u hu
      exact hf n u t (Nat.lt_succ_self n) (ih (fun k u v hk => hf k u v (Nat.lt_succ_of_lt hk)) hu) h
    · cases h
    · cases h

/-- What every round of a loop keeps, the state where the loop stops has too. -/
theorem repeatLast_keeps {P : State → Prop} {f : Nat → State → Out} {n : Nat}
    (hf : ∀ k u v, k < n → P u → f k u = .next v → P v) {s : State} (hs : P s) : P (repeatLast n f s) := by
  induction n with
  | zero => exact hs
  | succ n ih =>
    rw [repeatLast]
    split
    · rename_i t h; exact repeatOut_keeps hf hs h
    · exact ih fun k u v hk => hf k u v (Nat.lt_succ_of_lt hk)

/-- A loop that goes through has stopped at its end. -/
theorem repeatLast_next {f : Nat → State → Out} {n : Nat} {s t : State} (h : repeatOut n f s = .next t) :
    repeatLast n f s = t := by
  cases n with
  | zero => cases h; rfl
  | succ n => rw [repeatLast, h]

/-- After a round that faults no round is run. -/
theorem repeatOut_fault {f : Nat → State → Out} {k n : Nat} {s t : State} {e : Fault} (hk : k < n)
    (h : repeatOut k f s = .next t) (he : f k t = .fault e) : repeatOut n f s = .fault e := by
  induction n with
  | zero => omega
  | succ n ih =>
    rcases Nat.lt_succ_iff_lt_or_eq.mp hk with hk | rfl
    · rw [repeatOut, ih hk]
    · rw [repeatOut, h]; exact he

/-- A loop that faults does so in one of its rounds. -/
theorem repeatOut_eq_fault {f : Nat → State → Out} {n : Nat} {s : State} {e : Fault}
    (h : repeatOut n f s = .fault e) : ∃ k t, k < n ∧ repeatOut k f s = .next t ∧ f k t = .fault e := by
  induction n with
  | zero => cases h
  | succ n ih =>
    rw [repeatOut] at h
    split at h
    · rename_i t ht; exact ⟨n, t, Nat.lt_succ_self n, ht, h⟩
    · rename_i he
      obtain ⟨k, t, hk, h⟩ := ih (he.trans h)
      exact ⟨k, t, Nat.lt_succ_of_lt hk, h⟩
    · cases h

/-- A loop stops before the first round that faults. -/
theorem repeatLast_fault {f : Nat → State → Out} {k n : Nat} {s t : State} {e : Fault} (hk : k < n)
    (h : repeatOut k f s = .next t) (he : f k t = .fault e) : repeatLast n f s = t := by
  induction n with
  | zero => omega
  | succ n ih =>
    rw [repeatLast, repeatOut_fault hk h he]
    rcases Nat.lt_succ_iff_lt_or_eq.mp hk with hk | rfl
    · exact ih hk
    · exact repeatLast_next h

/-- A loop whose every round answers next from a state with `P k`, and leaves `P (k + 1)`, answers next. -/
theorem repeatOut_next {P : Nat → State → Prop} {f : Nat → State → Out} {n : Nat}
    (hf : ∀ k u, k < n → P k u → ∃ v, f k u = .next v ∧ P (k + 1) v) {s : State} (hs : P 0 s) :
    ∃ t, repeatOut n f s = .next t ∧ P n t := by
  induction n with
  | zero => exact ⟨s, rfl, hs⟩
  | succ n ih =>
    obtain ⟨u, hu, pu⟩ := ih fun k u hk => hf k u (Nat.lt_succ_of_lt hk)
    obtain ⟨v, hv, pv⟩ := hf n u (Nat.lt_succ_self n) pu
    exact ⟨v, by simp [repeatOut, hu, hv], pv⟩

/-- What every round of a counting loop keeps, the loop keeps. -/
theorem countUp_keeps {α : Type} {P : α → Prop} {f : Nat → α → α} {n : Nat}
    (hf : ∀ k a, k < n → P a → P (f k a)) {a : α} (ha : P a) : P (countUp n f a) := by
  induction n with
  | zero => exact ha
  | succ n ih =>
    exact hf n _ (Nat.lt_succ_self n) (ih fun k a hk => hf k a (Nat.lt_succ_of_lt hk))

/-- A counting loop whose round `k` turns `P k` into `P (k + 1)`. -/
theorem countUp_steps {α : Type} {P : Nat → α → Prop} {f : Nat → α → α} {n : Nat}
    (hf : ∀ k a, k < n → P k a → P (k + 1) (f k a)) {a : α} (ha : P 0 a) : P n (countUp n f a) := by
  induction n with
  | zero => exact ha
  | succ n ih =>
    exact hf n _ (Nat.lt_succ_self n) (ih fun k a hk => hf k a (Nat.lt_succ_of_lt hk))

/-! ## Frames -/

theorem changesOnly_refl (ps : List Part) (s : State) : s.changesOnly ps s := by
  intro p _; cases p <;> simp [State.sameOn]

theorem changesOnly_mono {ps qs : List Part} {s t : State} (h : s.changesOnly ps t) (hq : ps ⊆ qs) :
    s.changesOnly qs t := fun p hp => h p fun hm => hp (hq hm)

theorem sameOn_trans {s t u : State} {p : Part} (h : s.sameOn t p) (k : t.sameOn u p) : s.sameOn u p := by
  cases p <;> simp_all [State.sameOn]

theorem changesOnly_trans {ps : List Part} {s t u : State} (h : s.changesOnly ps t)
    (k : t.changesOnly ps u) : s.changesOnly ps u := fun p hp => sameOn_trans (h p hp) (k p hp)

theorem changesOnly_setReg (s : State) (d : RegNum) (v : Word) :
    s.changesOnly [.gpr, .stage] (s.setReg d v) := by
  intro p hp; cases p <;> simp_all [State.sameOn, State.byte]

theorem changesOnly_setGpr (s : State) (d : RegNum) (v : Word) : s.changesOnly [.gpr] (s.setGpr d v) := by
  intro p hp; cases p <;> simp_all [State.sameOn, State.byte]

theorem changesOnly_setMem (s : State) (m : Memory) : s.changesOnly [.mem] (s.setMem m) := by
  intro p hp; cases p <;> simp_all [State.sameOn, State.reg]

theorem changesOnly_setGpu (s : State) (g : Gpu) : s.changesOnly [.gpu] (s.setGpu g) := by
  intro p hp; cases p <;> simp_all [State.sameOn, State.reg, State.byte]

theorem changesOnly_setCdc (s : State) (c : Cdc) : s.changesOnly [.cdc] (s.setCdc c) := by
  intro p hp; cases p <;> simp_all [State.sameOn, State.reg, State.byte]

theorem changesOnly_setIntc (s : State) (c : Intc) : s.changesOnly [.intc] (s.setIntc c) := by
  intro p hp; cases p <;> simp_all [State.sameOn, State.reg, State.byte]

theorem changesOnly_setDma (s : State) (d : Dma) : s.changesOnly [.dma] (s.setDma d) := by
  intro p hp; cases p <;> simp_all [State.sameOn, State.reg, State.byte]

theorem changesOnly_setTimers (s : State) (x : Timers) : s.changesOnly [.timers] (s.setTimers x) := by
  intro p hp; cases p <;> simp_all [State.sameOn, State.reg, State.byte]

theorem changesOnly_raiseIrq (s : State) (n : Nat) (on : Bool) :
    s.changesOnly [.intc] (s.raiseIrq n on) := by
  intro p hp; cases p <;> simp_all [State.sameOn, State.reg, State.byte]

/-- Replacing the DMA engine touches the engine and I_STAT, no more. -/
theorem changesOnly_setDmaEdge (s : State) (d : Dma) : s.changesOnly [.dma, .intc] (setDmaEdge d s) := by
  intro p hp; cases p <;> simp_all [State.sameOn, State.reg, State.byte, setDmaEdge]

/-! ## Step 7 -/

/-- At the start of a step every set bit of I_STAT is old, so all are tested. -/
theorem latch_testedIrqs (s : State) : s.latch.testedIrqs = s.latch := by
  simp [State.testedIrqs, State.setIntc, State.latch]

/-- The test depends on SR, CAUSE, the interrupt controller and the young bits alone. -/
theorem testedIrqs_pending_congr {s t : State} (h1 : t.stage = s.stage) (h2 : t.intc = s.intc)
    (h3 : t.cop0 = s.cop0) : t.testedIrqs.interruptPending = s.testedIrqs.interruptPending := by
  simp [State.testedIrqs, State.interruptPending, State.iec, State.readCause, State.ip2, h1, h2, h3]

/-! ## Taking an exception -/

/-- SR at entry: two pairs move up, the rest stays. -/
theorem pushSr_fields (sr : Word) :
    (pushSr sr).extractLsb' 0 6 = sr.extractLsb' 0 4 ++ 0#2 ∧
      (pushSr sr).extractLsb' 6 26 = sr.extractLsb' 6 26 := by
  refine ⟨?_, ?_⟩ <;> apply BitVec.eq_of_getLsbD_eq <;> intro i hi
  · rw [BitVec.getLsbD_append]; interval_cases i <;> simp [pushSr]
  · interval_cases i <;> simp [pushSr]

/-- SR at RFE: two pairs move down, the rest stays. -/
theorem popSr_fields (sr : Word) :
    (popSr sr).extractLsb' 0 4 = sr.extractLsb' 2 4 ∧
      (popSr sr).extractLsb' 4 28 = sr.extractLsb' 4 28 := by
  refine ⟨?_, ?_⟩ <;> ext i hi <;> simp [popSr] <;> interval_cases i <;> simp

/-- CAUSE at entry: the code, the branch-delay bit, CE = 0, the rest as it was. -/
theorem entryCause_fields (c : Word) (code : BitVec 5) (bd : Bool) :
    (entryCause c code bd).extractLsb' 2 5 = code ∧ (entryCause c code bd).getLsbD 31 = bd ∧
      (entryCause c code bd).extractLsb' 28 2 = 0 ∧
      entryCause c code bd &&& 0x4FFFFF83#32 = c &&& 0x4FFFFF83#32 := by
  refine ⟨?_, ?_, ?_, ?_⟩
  · ext i hi; cases bd <;> simp [entryCause] <;> interval_cases i <;> simp
  · cases bd <;> simp [entryCause]
  · ext i hi; cases bd <;> simp [entryCause] <;> interval_cases i <;> simp
  · ext i hi; cases bd <;> simp [entryCause] <;> interval_cases i <;> simp

/-- `raiseAt` answers next, in the state the exception's entry describes. -/
theorem raiseAt_entered (e : Exc) (epc : Word) (bd : Bool) (s : State) :
    ∃ t, raiseAt e epc bd s = .next t ∧ s.enteredAt e epc bd t := by
  refine ⟨_, rfl, ?_⟩
  obtain ⟨h1, h2⟩ := pushSr_fields s.cop0.sr
  obtain ⟨h3, h4, h5, h6⟩ := entryCause_fields s.cop0.cause e.code bd
  refine ⟨?_, rfl, h1, h2, h3, h4, h5, h6, rfl, rfl, rfl, rfl, rfl, rfl, rfl, rfl, rfl, rfl, rfl, rfl, ?_⟩
  · simp [State.vector, State.bev, Config.vecRom, Config.vecRam]
  · intro p hp; cases p <;> simp_all [State.sameOn, State.reg, State.byte]

/-- `raise` answers next, with the exception entered at the instruction at the pc. -/
theorem raise_entered (e : Exc) (s : State) : ∃ t, raise e s = .next t ∧ s.entered e t :=
  raiseAt_entered e _ _ s

end Sys2Proof.Machine
end

