-- ==== Sys2Proof/Laws/Bus.lean ====
section
/-!
SUPPORT. What a bus access can do, and what it does on a plain byte array.
-/

namespace Sys2Proof.Machine

/-! ## Reads -/

/-- A read of a plain byte array gives its bytes and changes nothing. -/
theorem busRead_plain {pa : Word} {n : Width} {s : State} (h : plainAt pa n = true) :
    busRead pa n s = .ok (Memory.read s.mem pa.toNat n, s) := by
  unfold plainAt at h
  unfold busRead
  split at h
  · rename_i r hr
    rw [hr]
    cases ho : r.owner <;> simp_all
  · cases h

/-- What a bus read can leave: the state as it was; a timer, whose reached bits a mode read clears; the disc
FIFOs, popped; a VRAM transfer, one word further. -/
theorem busRead_cases {pa v : Word} {n : Width} {s t : State} (h : busRead pa n s = .ok (v, t)) :
    t = s ∨ (∃ k off, t = s.setTimers (s.timers.set k ((s.timers.get k).readReg off).2)) ∨
      (∃ off, t = s.setCdc (s.cdc.readPort off).2) ∨ t = (gpuRead s).2 := by
  unfold busRead at h
  split at h
  · cases h
  · rename_i r hr
    split at h
    · cases h; exact .inl rfl
    · cases h; exact .inl rfl
    · cases h; exact .inl rfl
    · cases h; exact .inl rfl
    · cases h; exact .inl rfl
    · split at h <;> cases h <;> exact .inl rfl
    · split at h
      · cases h; exact .inl rfl
      · cases h; exact .inr (.inl ⟨_, _, rfl⟩)
    · cases h; exact .inr (.inr (.inl ⟨_, rfl⟩))
    · simp only [graphicsRead] at h
      split at h
      · have := congrArg Prod.snd (Except.ok.inj h)
        exact .inr (.inr (.inr this.symm))
      · cases h; exact .inl rfl

/-- A read that fails is a bus error naming address and width. -/
theorem busRead_error {pa : Word} {n : Width} {s : State} {e : Fault} (h : busRead pa n s = .error e) :
    owner pa n = none ∧ e = readError pa n := by
  unfold busRead at h
  split at h
  · exact ⟨by assumption, by cases h; rfl⟩
  · split at h <;> first | cases h | (split at h <;> cases h)

/-! ## Writes -/

/-- A write to a plain byte array that can be written stores there and nothing else. -/
theorem busWrite_storable {pa v : Word} {n : Width} {s : State} (h : storableAt pa n = true) :
    busWrite pa n v s = .next (storeWrite pa n v s) := by
  unfold storableAt at h
  unfold busWrite
  split at h
  · rename_i r hr
    rw [hr]
    cases ho : r.owner <;> simp_all
    rw [ttyTap, if_neg (by rintro ⟨h1, h2⟩; simp_all)]
  · cases h

/-- What a bus write that goes through can do. -/
theorem busWrite_cases {pa v : Word} {n : Width} {s t : State} (h : busWrite pa n v s = .next t) :
    t = storeWrite pa n v s ∨ t = ttyTap pa n v (storeWrite pa n v s) ∨
      t = s.setIntc { s.intc with istat := s.intc.istat &&& v.extractLsb' 0 11 } ∨
      t = s.setIntc { s.intc with imask := v.extractLsb' 0 11 } ∨
      (∃ off, t = setDmaEdge (s.dma.writeReg off v) s) ∨
      (∃ k off, t = s.setTimers (s.timers.set k ((s.timers.get k).writeReg off v))) ∨
      (∃ off, discWrite off (v.extractLsb' 0 8) s = .next t) ∨
      submitCommandWord v s = .next t ∨ runGp1 v s = .next t := by
  unfold busWrite at h
  split at h
  · cases h
  · simp only [] at h
    split at h
    · cases h; exact .inl rfl
    · cases h; exact .inl rfl
    · cases h; exact .inr (.inl rfl)
    · cases h
    · split at h <;> cases h
      · exact .inr (.inr (.inl rfl))
      · exact .inr (.inr (.inr (.inl rfl)))
    · split at h <;> cases h
      · exact .inl rfl
      · exact .inr (.inr (.inr (.inr (.inl ⟨_, rfl⟩))))
    · split at h <;> cases h
      · exact .inl rfl
      · exact .inr (.inr (.inr (.inr (.inr (.inl ⟨_, _, rfl⟩)))))
    · exact .inr (.inr (.inr (.inr (.inr (.inr (.inl ⟨_, h⟩))))))
    · simp only [graphicsWrite] at h
      split at h
      · exact .inr (.inr (.inr (.inr (.inr (.inr (.inr (.inl h)))))))
      · exact .inr (.inr (.inr (.inr (.inr (.inr (.inr (.inr h)))))))

/-! ## The processor's accesses -/

/-- `withRead` answers next exactly when the bus reads and what follows answers next. -/
theorem withRead_next {pa : Word} {n : Width} {s t : State} {k : Word → State → Out} :
    withRead pa n s k = .next t ↔ ∃ v u, busRead pa n s = .ok (v, u) ∧ k v u = .next t := by
  unfold withRead
  split <;> simp_all

/-- A read after the bus has answered. -/
theorem withRead_ok {pa v : Word} {n : Width} {s u : State} {k : Word → State → Out}
    (h : busRead pa n s = .ok (v, u)) : withRead pa n s k = k v u := by
  unfold withRead; rw [h]

/-- A read after the bus has failed. -/
theorem withRead_error {pa : Word} {n : Width} {s : State} {e : Fault} {k : Word → State → Out}
    (h : busRead pa n s = .error e) : withRead pa n s k = .fault e := by
  unfold withRead; rw [h]

/-- A memory read that answers next has trapped, or has read. -/
theorem memRead_next {va : Word} {n : Width} {s t : State} {k : Word → State → Out}
    (h : memRead va n s k = .next t) :
    (misaligned va n = true ∧ raise (.adEL va) s = .next t) ∨
      ∃ v u, busRead (phys va) n s = .ok (v, u) ∧ k v u = .next t := by
  unfold memRead at h
  split at h
  · exact .inl ⟨by assumption, h⟩
  · exact .inr (withRead_next.mp h)

/-- A memory write that answers next has trapped, has been isolated, or has written. -/
theorem memWrite_next {va v : Word} {n : Width} {s t : State} (h : memWrite va n v s = .next t) :
    (misaligned va n = true ∧ raise (.adES va) s = .next t) ∨ t = s ∨
      busWrite (phys va) n v s = .next t := by
  unfold memWrite at h
  split at h
  · exact .inl ⟨by assumption, h⟩
  · split at h
    · cases h; exact .inr (.inl rfl)
    · exact .inr (.inr h)

/-- Alignment, as arithmetic. -/
theorem misaligned_half (va : Word) : misaligned va .half = decide (va.toNat % 2 ≠ 0) := by
  rw [Bool.eq_iff_iff]; simp [misaligned, BitVec.toNat_eq]

theorem misaligned_word (va : Word) : misaligned va .word = decide (va.toNat % 4 ≠ 0) := by
  rw [Bool.eq_iff_iff]; simp [misaligned, BitVec.toNat_eq]

/-- A byte of a store is the store's, every other is as before. -/
theorem storeWrite_stored {pa v : Word} {n : Width} {s : State} (h : s.memoryCanonical = true) :
    s.stored (storeWrite pa n v s) pa.toNat ((List.range n.bytes).map (byteOf v)) := by
  refine ⟨changesOnly_setMem _ _, ?_, ?_⟩
  · intro k hk
    simp only [List.length_map, List.length_range] at hk
    simp only [List.getElem_map, List.getElem_range, storeWrite, State.byte, State.setMem_mem]
    exact Memory.readByte_write_in _ _ _ h hk
  · intro c hc
    simp only [List.length_map, List.length_range] at hc
    simp only [storeWrite, State.byte, State.setMem_mem]
    exact Memory.readByte_write_other _ _ _ (by omega)

end Sys2Proof.Machine
end

