-- ==== Sys2Proof/Laws/Disc.lean ====
section
/-!
SUPPORT. What every operation of the disc controller keeps: the FIFOs and the sectors their sizes, the disc in.
-/

namespace Sys2Proof.Machine

/-- From `c` to `d` the disc stays in, and FIFOs that were within their sizes still are. -/
def Cdc.keeps (c d : Cdc) : Prop := d.disc = c.disc ∧ (c.bounded = true → d.bounded = true)

namespace Cdc

theorem bounded_iff (c : Cdc) :
    c.bounded = true ↔ c.param.length ≤ 16 ∧ c.resp.length ≤ 16 ∧ c.data.length ≤ 2340 ∧
      (c.hdr.getD []).length ≤ 8 ∧ wellSized c.disc = true ∧
      c.sector.all (·.length == Config.sectorRaw) = true := by simp [Cdc.bounded, and_assoc]

/-- A sector read from a well-sized disc is well sized. -/
theorem length_sectorAt {c : Cdc} {n : Int} {b : List Byte} (hd : wellSized c.disc = true)
    (h : c.sectorAt n = some b) : b.length = Config.sectorRaw := by
  unfold sectorAt at h
  split at h
  · rename_i d e
    split at h
    · cases h
    · simp only [wellSized, e, Option.getD_some, List.all_eq_true, beq_iff_eq] at hd
      exact hd b (List.mem_of_getElem? h)
  · cases h

theorem keeps_refl (c : Cdc) : c.keeps c := ⟨rfl, id⟩

theorem keeps_trans {c d e : Cdc} (h : c.keeps d) (k : d.keeps e) : c.keeps e :=
  ⟨k.1.trans h.1, fun b => k.2 (h.2 b)⟩

/-- Bounds depend on the four sizes, the disc and the sector buffer alone. -/
theorem keeps_of_sizes {c d : Cdc} (hd : d.disc = c.disc) (hp : d.param.length ≤ c.param.length)
    (hr : d.resp.length ≤ c.resp.length) (hq : d.data.length ≤ c.data.length)
    (hh : (d.hdr.getD []).length ≤ (c.hdr.getD []).length) (hs : d.sector = c.sector := by rfl) :
    c.keeps d :=
  ⟨hd, fun b => by rw [bounded_iff] at b ⊢; rw [hd, hs]; exact ⟨by omega, by omega, by omega, by omega, b.2.2.2.2⟩⟩

theorem keeps_popData (c : Cdc) : c.keeps c.popData.2 :=
  keeps_of_sizes rfl le_rfl le_rfl (by simp [popData, fifoPop]) le_rfl

theorem keeps_popWord (c : Cdc) : c.keeps c.popWord.2 :=
  keeps_trans (keeps_popData c) (keeps_trans (keeps_popData _) (keeps_trans (keeps_popData _) (keeps_popData _)))

theorem keeps_readPort (c : Cdc) (off : Nat) : c.keeps (c.readPort off).2 := by
  unfold readPort
  split
  · exact keeps_refl c
  · exact keeps_of_sizes rfl le_rfl (by simp [fifoPop]) le_rfl le_rfl
  · exact keeps_popData c
  · exact keeps_refl c

theorem length_user (c : Cdc) (s : List Byte) : (c.user s).length ≤ 2340 := by
  unfold user; split <;> simp only [List.length_take] <;> omega

theorem keeps_request (c : Cdc) (v : Byte) : c.keeps (c.request v) := by
  unfold request
  split
  · split
    · split
      · exact ⟨rfl, fun b => by rw [bounded_iff] at b ⊢; exact ⟨b.1, b.2.1, length_user _ _, b.2.2.2⟩⟩
      · exact keeps_refl c
    · exact keeps_refl c
  · exact keeps_of_sizes rfl le_rfl le_rfl (Nat.zero_le _) le_rfl

theorem keeps_writePort (c : Cdc) (off : Nat) (v : Byte) : c.keeps (c.writePort off v) := by
  unfold writePort
  split <;> first | exact ⟨rfl, id⟩ | exact keeps_request c v | skip
  · split
    · exact ⟨rfl, fun b => by
        rw [bounded_iff] at b ⊢; refine ⟨?_, b.2⟩; simp only [List.length_append, List.length_singleton]; omega⟩
    · exact keeps_refl c
  · exact keeps_of_sizes rfl (by simp only [acknowledge]; split <;> simp) le_rfl le_rfl le_rfl

theorem keeps_command (p : Params) (cmd : DiscCmd) (c : Cdc) : c.keeps (c.command p cmd) := by
  unfold command
  simp only []
  split
  · exact keeps_of_sizes rfl (Nat.zero_le _) le_rfl le_rfl le_rfl
  · split
    · exact keeps_of_sizes rfl (Nat.zero_le _) le_rfl le_rfl le_rfl
    · split
      · exact keeps_of_sizes rfl (Nat.zero_le _) le_rfl le_rfl le_rfl
      · split <;> exact keeps_of_sizes rfl (Nat.zero_le _) le_rfl le_rfl le_rfl

/-- A first response is at most 16 bytes, and the state change keeps disc and sizes. -/
theorem keeps_deliverAck (p : Params) (c : Cdc) (cmd : DiscCmd) (ps : List Byte) :
    c.keeps (c.deliverAck p cmd ps).2 ∧
      (c.bounded = true → (c.deliverAck p cmd ps).1.length ≤ 16) := by
  have t : c.keeps c.useTarget := by unfold useTarget; split <;> exact ⟨rfl, id⟩
  cases cmd <;> simp only [deliverAck, startRead] <;>
    first
      | exact ⟨⟨rfl, id⟩, fun _ => by simp⟩
      | exact ⟨⟨t.1, t.2⟩, fun _ => by simp⟩
      | skip
  · exact ⟨keeps_refl c, fun b => by rw [bounded_iff] at b; omega⟩
  · split <;> exact ⟨keeps_refl c, fun _ => by simp⟩

/-- A second response is at most 16 bytes, and the state change keeps disc and sizes. -/
theorem keeps_deliverDone (p : Params) (c : Cdc) (cmd : DiscCmd) :
    c.keeps (c.deliverDone p cmd).2.2 ∧ (c.deliverDone p cmd).1.length ≤ 16 := by
  have t : c.keeps c.useTarget := by unfold useTarget; split <;> exact ⟨rfl, id⟩
  cases cmd <;> simp only [deliverDone] <;>
    first
      | exact ⟨⟨rfl, id⟩, by simp⟩
      | exact ⟨⟨t.1, t.2⟩, by simp⟩
      | skip
  split <;> exact ⟨keeps_refl c, by simp⟩

theorem keeps_deliver (p : Params) (c : Cdc) (k : EventKind) : c.keeps (c.deliver p k).1 := by
  have resp : ∀ {d : Cdc} (bs : List Byte) (n : BitVec 3), c.keeps d → (c.bounded = true → bs.length ≤ 16) →
      c.keeps (d.respond bs n) := fun bs n h hb =>
    ⟨h.1, fun b => by
      have := h.2 b
      rw [bounded_iff] at this ⊢
      exact ⟨this.1, hb b, this.2.2⟩⟩
  unfold deliver
  split
  · have h := keeps_deliverAck p c
    exact resp _ _ (h _ _).1 (h _ _).2
  · exact resp _ _ (keeps_refl c) fun _ => by simp
  · have h := keeps_deliverDone p c
    exact resp _ _ (h _).1 fun _ => (h _).2
  · split
    · split
      · exact resp _ _ ⟨rfl, id⟩ fun _ => by simp
      · refine ⟨rfl, fun b => ?_⟩
        rw [bounded_iff] at b ⊢
        exact ⟨b.1, by simp [Cdc.append, Cdc.respond], b.2.2.1, by simp [Cdc.append, Cdc.respond],
          b.2.2.2.2.1, by simpa [Cdc.append, Cdc.respond] using length_sectorAt b.2.2.2.2.1 (by assumption)⟩
    · exact keeps_refl c
  · split
    · split <;> exact ⟨rfl, id⟩
    · exact keeps_refl c

end Cdc

theorem Cdc.keeps_countDown (n : Nat) (c : Cdc) : c.keeps (c.countDown n) := by
  unfold countDown; split <;> exact ⟨rfl, id⟩

/-- `disc_advance`: the controller, and I_STAT bit 2. -/
theorem discAdvance_spec (n : Nat) (s : State) :
    ∃ on c, discAdvance n s = (s.raiseIrq 2 on).setCdc c ∧ s.cdc.keeps c := by
  have e0 : s.raiseIrq 2 false = s := by simp [State.raiseIrq, State.setIntc]
  unfold discAdvance
  split
  · exact ⟨false, s.cdc, by rw [e0]; rfl, Cdc.keeps_refl _⟩
  · simp only []
    split
    · exact ⟨_, _, rfl, Cdc.keeps_trans ⟨rfl, id⟩ (Cdc.keeps_deliver _ _ _)⟩
    · exact ⟨false, _, congrArg (State.setCdc · _) e0.symm, Cdc.keeps_countDown _ _⟩

/-- What `disc_advance` makes of the controller depends on the controller and the parameters alone. -/
theorem discAdvance_cdc_congr {n : Nat} {s t : State} (hc : s.cdc = t.cdc) (hp : s.params = t.params) :
    (discAdvance n s).cdc = (discAdvance n t).cdc := by
  unfold discAdvance
  rw [hc, hp]
  cases hq : t.cdc.queue with
  | nil => exact hc
  | cons e rest => simp only []; split <;> simp

/-- A write to a disc port answers next, and changes the controller alone. -/
theorem discWrite_spec (off : Nat) (v : Byte) (s : State) :
    ∃ c, discWrite off v s = .next (s.setCdc c) ∧ s.cdc.keeps c := by
  unfold discWrite
  split
  · unfold discCommandByte
    split <;> first
      | exact ⟨_, rfl, Cdc.keeps_command _ _ _⟩
      | exact ⟨_, rfl, Cdc.keeps_of_sizes rfl (Nat.zero_le _) le_rfl le_rfl le_rfl⟩
  · exact ⟨_, rfl, Cdc.keeps_writePort _ _ _⟩

end Sys2Proof.Machine
end

