-- ==== Sys2Proof/Laws/Graphics.lean ====
section
/-!
SUPPORT. What drawing changes: VRAM alone, in its canonical form, inside the region drawn to. And what the GP0
port does with a word.
-/

namespace Sys2Proof.Machine

/-! ## VRAM -/

/-- The canonical form of VRAM, on the unit. -/
def Gpu.vramOk (g : Gpu) : Prop :=
  Cells.rising g.vram = true ∧ g.vram.all (fun c => decide (c.1 < 0x80000)) = true

theorem vramCanonical_iff (s : State) : s.vramCanonical = true ↔ s.gpu.vramOk := by
  simp [State.vramCanonical, Gpu.vramOk]

theorem vramIndex_lt (x y : Nat) : vramIndex x y < 0x80000 := by unfold vramIndex; omega

theorem vramIndex_inj {x y x' y' : Nat} (h : vramIndex x y = vramIndex x' y') :
    x % 1024 = x' % 1024 ∧ y % 512 = y' % 512 := by unfold vramIndex at h; omega

/-- A pixel written is read back. -/
theorem pixel_setPixel_same (g : Gpu) {x y x' y' : Nat} (p : Half) (hx : x' % 1024 = x % 1024)
    (hy : y' % 512 = y % 512) : (g.setPixel x y p).pixel x' y' = p := by
  have : vramIndex x' y' = vramIndex x y := by unfold vramIndex; rw [hx, hy]
  simp [Gpu.pixel, Gpu.setPixel, this, Cells.get?_put_same]

/-- A pixel write leaves every other pixel alone. -/
theorem pixel_setPixel_other (g : Gpu) {x y x' y' : Nat} (p : Half)
    (h : ¬(x' % 1024 = x % 1024 ∧ y' % 512 = y % 512)) : (g.setPixel x y p).pixel x' y' = g.pixel x' y' := by
  have : vramIndex x' y' ≠ vramIndex x y := fun e => h (vramIndex_inj e)
  simp [Gpu.pixel, Gpu.setPixel, Cells.get?_put_other _ _ this]

/-! ## Drawing -/

/-- From `g` to `h` only VRAM has changed, canonical form kept, and only at pixels of `A`. -/
structure Drawn (A : Nat → Nat → Prop) (g h : Gpu) : Prop where
  rest : h = { g with vram := h.vram }
  canonical : g.vramOk → h.vramOk
  outside : ∀ x y, ¬A (x % 1024) (y % 512) → h.pixel x y = g.pixel x y

namespace Drawn

variable {A : Nat → Nat → Prop} {g h k : Gpu}

theorem refl (A : Nat → Nat → Prop) (g : Gpu) : Drawn A g g := ⟨rfl, id, fun _ _ _ => rfl⟩

theorem trans (a : Drawn A g h) (b : Drawn A h k) : Drawn A g k where
  rest := by rw [b.rest, a.rest]
  canonical := fun c => b.canonical (a.canonical c)
  outside := fun x y n => (b.outside x y n).trans (a.outside x y n)

theorem weaken {B : Nat → Nat → Prop} (a : Drawn A g h) (w : ∀ x y, A x y → B x y) : Drawn B g h :=
  ⟨a.rest, a.canonical, fun x y n => a.outside x y fun m => n (w _ _ m)⟩

/-- Drawing changes no register of the unit. -/
theorem regs (a : Drawn A g h) :
    h.mode = g.mode ∧ h.buf = g.buf ∧ h.rect = g.rect ∧ h.cx = g.cx ∧ h.cy = g.cy ∧ h.rem = g.rem ∧
      h.stat = g.stat ∧ h.texwin = g.texwin ∧ h.areaTl = g.areaTl ∧ h.areaBr = g.areaBr ∧
      h.offset = g.offset ∧ h.rectFlip = g.rectFlip ∧ h.dispStart = g.dispStart ∧ h.hRange = g.hRange ∧
      h.vRange = g.vRange ∧ h.readlatch = g.readlatch ∧ h.field = g.field ∧ h.log = g.log ∧
      h.frame = g.frame := by
  rw [a.rest]; simp

theorem setPixel (g : Gpu) (x y : Nat) (p : Half) (hA : A (x % 1024) (y % 512)) :
    Drawn A g (g.setPixel x y p) where
  rest := rfl
  canonical := fun c =>
    ⟨Cells.rising_put _ _ c.1, Cells.all_put c.2 (by simp [vramIndex_lt])⟩
  outside := fun x' y' n => pixel_setPixel_other g p fun e => n (by rw [e.1, e.2]; exact hA)

theorem put (g : Gpu) (x y : Nat) (p : Half) (hA : A (x % 1024) (y % 512)) : Drawn A g (g.put x y p) := by
  unfold Gpu.put
  split
  · exact refl A g
  · exact setPixel g x y _ hA

theorem plot (g : Gpu) (p : Paint) (x y r gr b : Nat) (semi m : Bool) (hA : A (x % 1024) (y % 512)) :
    Drawn A g (g.plot p x y r gr b semi m) := by
  by_cases hm : (g.checkMask && (g.pixel x y).getLsbD 15) = true
  · simp only [Gpu.plot, if_pos hm]; exact refl A g
  · simp only [Gpu.plot, if_neg hm]; exact setPixel g x y _ hA

/-- A loop draws what its rounds draw. -/
theorem countUp {f : Nat → Gpu → Gpu} {n : Nat} (hf : ∀ i k, i < n → Drawn A g k → Drawn A k (f i k)) :
    Drawn A g (Machine.countUp n f g) :=
  countUp_keeps (P := Drawn A g) (fun i k hi hk => hk.trans (hf i k hi hk)) (refl A g)

/-- A fill draws in its rectangle, wrapped at the edges of VRAM. -/
theorem fill (g : Gpu) (x0 y0 w h : Nat) (p : Half) :
    Drawn (fun x y => ∃ i j, i < w ∧ j < h ∧ x = (x0 + i) % 1024 ∧ y = (y0 + j) % 512) g
      (g.fill x0 y0 w h p) :=
  countUp fun j _ hj _ => countUp fun i k hi _ => setPixel k _ _ p ⟨i, j, hi, hj, rfl, rfl⟩

/-- A copy draws in its destination rectangle. -/
theorem copy (g : Gpu) (sx sy tx ty w h : Nat) :
    Drawn (fun x y => ∃ i j, i < w ∧ j < h ∧ x = (tx + i) % 1024 ∧ y = (ty + j) % 512) g
      (g.copy sx sy tx ty w h) :=
  countUp fun j _ hj _ => countUp fun i k hi _ => put k _ _ _ ⟨i, j, hi, hj, rfl, rfl⟩

/-- The pixels of the drawing area. -/
def area (g : Gpu) (x y : Nat) : Prop :=
  (g.areaTl.extractLsb' 0 10).toNat ≤ x ∧ x ≤ (g.areaBr.extractLsb' 0 10).toNat ∧
    (g.areaTl.extractLsb' 10 9).toNat ≤ y ∧ y ≤ (g.areaBr.extractLsb' 10 9).toNat

theorem area_congr (a : Drawn A g h) : area h = area g := by
  rw [a.rest]; rfl

/-- A pixel in the drawing area has coordinates that VRAM does not wrap. -/
theorem inArea_spec {g : Gpu} {x y : Int} (h : g.inArea x y = true) :
    area g (x.toNat % 1024) (y.toNat % 512) := by
  simp only [Gpu.inArea, Bool.and_eq_true, decide_eq_true_eq] at h
  have h1 := (g.areaBr.extractLsb' 0 10).isLt
  have h2 := (g.areaBr.extractLsb' 10 9).isLt
  unfold area
  omega

/-- The pixel pipeline draws inside the drawing area. -/
theorem shadePixel (g : Gpu) (p : Paint) (x y : Int) (r gr b u v : Nat) :
    Drawn (area g) g (g.shadePixel p x y r gr b u v) := by
  unfold Gpu.shadePixel
  split
  · rename_i ha
    have hA := inArea_spec ha
    split
    · simp only []
      split
      · exact refl _ g
      · split <;> exact plot g _ _ _ _ _ _ _ _ hA
    · exact plot g _ _ _ _ _ _ _ _ hA
  · exact refl _ g

/-- A loop of pixels draws inside the drawing area. -/
theorem pixels {f : Nat → Gpu → Gpu} {n : Nat} (hf : ∀ i k, Drawn (area k) k (f i k)) (g : Gpu) :
    Drawn (area g) g (Machine.countUp n f g) :=
  countUp fun i k _ hk => by rw [← area_congr hk]; exact hf i k

theorem trianglePixel (g : Gpu) (i : Interp) (p : Paint) (a b c : Vertex) (x y : Int) :
    Drawn (area g) g (g.trianglePixel i p a b c x y) := by
  unfold Gpu.trianglePixel
  simp only []
  split
  · exact shadePixel g _ _ _ _ _ _ _ _
  · exact refl _ g

theorem triangle (g : Gpu) (i : Interp) (p : Paint) (a b c : Vertex) :
    Drawn (area g) g (g.triangle i p a b c) := by
  have cov : ∀ a b c, Drawn (area g) g (g.coverage i p a b c) := fun a b c =>
    pixels (fun _ k => pixels (fun _ m => trianglePixel m i p a b c _ _) k) g
  unfold Gpu.triangle
  split
  · exact refl _ g
  · simp only []
    split
    · exact refl _ g
    · split <;> exact cov _ _ _

theorem line (g : Gpu) (i : Interp) (p : Paint) (a b : Vertex) : Drawn (area g) g (g.line i p a b) := by
  unfold Gpu.line
  split
  · exact refl _ g
  · exact pixels (fun _ k => shadePixel k _ _ _ _ _ _ _ _) g

theorem rectangle (g : Gpu) (p : Paint) (c : Vertex) (w h : Nat) :
    Drawn (area g) g (g.rectangle p c w h) :=
  pixels (fun _ k => pixels (fun _ m => shadePixel m p _ _ _ _ _ _ _) k) g

end Drawn

end Sys2Proof.Machine
end

