-- ==== Sys2Proof/Laws/GraphicsPort.lean ====
section
/-!
SUPPORT. What a GP0 command leaves, how a transfer's cursor moves, and what a word at the GP0 port can do.
-/

namespace Sys2Proof.Machine

/-! ## The transfer cursor -/

/-- The cursor stands before pixel `p` of the rectangle, in reading order. -/
def Gpu.cursorAt (g : Gpu) (p : Nat) : Prop :=
  g.cx < g.rect.w ∧ g.cy * g.rect.w + g.cx = p ∧ p ≤ g.rect.w * g.rect.h

/-- The rows left and the pixels left say the same. -/
theorem cursorAt_row {g : Gpu} {p : Nat} (h : g.cursorAt p) :
    g.cy < g.rect.h ↔ p < g.rect.w * g.rect.h := by
  obtain ⟨h1, h2, h3⟩ := h
  subst h2
  rw [Nat.mul_comm g.rect.w g.rect.h]
  constructor
  · intro h4
    calc g.cy * g.rect.w + g.cx < g.cy * g.rect.w + g.rect.w := by omega
      _ = (g.cy + 1) * g.rect.w := by ring
      _ ≤ g.rect.h * g.rect.w := Nat.mul_le_mul_right _ h4
  · intro h4
    by_contra h5
    have := Nat.mul_le_mul_right g.rect.w (Nat.le_of_not_lt h5)
    omega

/-- An advance moves the cursor to the next pixel. -/
theorem cursorAt_advance {g : Gpu} {p : Nat} (h : g.cursorAt p) (hp : p < g.rect.w * g.rect.h) :
    g.advance.cursorAt (p + 1) := by
  obtain ⟨h1, h2, h3⟩ := h
  subst h2
  unfold Gpu.advance
  split
  · rename_i h4
    refine ⟨by show 0 < g.rect.w; omega, ?_, hp⟩
    show (g.cy + 1) * g.rect.w + 0 = _
    rw [Nat.add_mul]; omega
  · rename_i h4
    exact ⟨by show g.cx + 1 < g.rect.w; omega, by show g.cy * g.rect.w + (g.cx + 1) = _; omega, hp⟩

/-- What the cursor stands before does not depend on VRAM or the counts. -/
theorem cursorAt_congr {g h : Gpu} {p : Nat} (hr : h.rect = g.rect) (hx : h.cx = g.cx) (hy : h.cy = g.cy) :
    h.cursorAt p ↔ g.cursorAt p := by simp [Gpu.cursorAt, hr, hx, hy]

/-- Two units that agree but for VRAM, cursor and counts. -/
def Gpu.movedOnly (g h : Gpu) : Prop :=
  h = { g with vram := h.vram, cx := h.cx, cy := h.cy }

/-- One pixel of a transfer moved: the cursor is one further unless none was left. -/
theorem takePixel_spec {g : Gpu} {p : Nat} (v : Half) (h : g.cursorAt p) :
    (g.takePixel v).cursorAt (min (p + 1) (g.rect.w * g.rect.h)) ∧ g.movedOnly (g.takePixel v) ∧
      (g.vramOk → (g.takePixel v).vramOk) := by
  have hd := Drawn.put (A := fun _ _ => True) g (g.rect.x + g.cx) (g.rect.y + g.cy) v trivial
  unfold Gpu.takePixel
  split
  · rename_i hc
    have hp := (cursorAt_row h).mp hc
    rw [Nat.min_eq_left hp]
    obtain ⟨-, -, e1, e2, e3, -⟩ := hd.regs
    refine ⟨cursorAt_advance ((cursorAt_congr e1 e2 e3).mpr h) (by rw [e1]; exact hp), ?_, fun c => ?_⟩
    · unfold Gpu.movedOnly Gpu.advance; rw [hd.rest]; split <;> rfl
    · have := hd.canonical c
      unfold Gpu.advance; split <;> exact this
  · rename_i hc
    have hp : ¬p < g.rect.w * g.rect.h := fun k => hc ((cursorAt_row h).mpr k)
    rw [Nat.min_eq_right (by omega)]
    have := h.2.2
    exact ⟨by rwa [show g.rect.w * g.rect.h = p by omega], rfl, id⟩

/-- The same for a pixel read. -/
theorem getPixel_spec {g : Gpu} {p : Nat} (h : g.cursorAt p) :
    g.getPixel.2.cursorAt (min (p + 1) (g.rect.w * g.rect.h)) ∧ g.movedOnly g.getPixel.2 ∧
      g.getPixel.2.vram = g.vram := by
  unfold Gpu.getPixel
  split
  · rename_i hc
    have hp := (cursorAt_row h).mp hc
    rw [Nat.min_eq_left hp]
    refine ⟨cursorAt_advance h hp, ?_, ?_⟩
    · simp only [Gpu.movedOnly, Gpu.advance]; split <;> rfl
    · simp only [Gpu.advance]; split <;> rfl
  · rename_i hc
    have hp : ¬p < g.rect.w * g.rect.h := fun k => hc ((cursorAt_row h).mpr k)
    rw [Nat.min_eq_right (by omega)]
    have := h.2.2
    exact ⟨by rwa [show g.rect.w * g.rect.h = p by omega], rfl, rfl⟩

/-- An open transfer, by the cursor. -/
theorem transferring_iff (g : Gpu) :
    g.transferring = true ↔
      ∃ p, g.cursorAt p ∧ p < g.rect.w * g.rect.h ∧ g.rem = (g.rect.w * g.rect.h - p + 1) / 2 := by
  constructor
  · intro h
    simp only [Gpu.transferring, Gpu.pixelsLeft, Bool.and_eq_true, decide_eq_true_eq, beq_iff_eq] at h
    obtain ⟨⟨h1, h2⟩, h3⟩ := h
    have hp : g.cy * g.rect.w + g.cx < g.rect.w * g.rect.h := by
      have := Nat.mul_le_mul_right g.rect.w (show g.cy + 1 ≤ g.rect.h from h2)
      rw [Nat.mul_comm g.rect.w g.rect.h]
      rw [Nat.add_mul] at this
      omega
    exact ⟨_, ⟨h1, rfl, hp.le⟩, hp, h3⟩
  · rintro ⟨p, h1, h2, h3⟩
    have h4 := (cursorAt_row h1).mpr h2
    obtain ⟨h5, h6, h7⟩ := h1
    simp [Gpu.transferring, Gpu.pixelsLeft, h4, h5, h6, h3]

/-- A transfer of at least one pixel opens with its cursor at the start. -/
theorem openTransfer_transferring (g : Gpu) (m : GpuMode) (corner size : Word) :
    (g.openTransfer m corner size).transferring = true := by
  rw [transferring_iff]
  have hw : 0 < (sizeOf size).1 := Nat.succ_pos _
  have hh : 0 < (sizeOf size).2 := Nat.succ_pos _
  exact ⟨0, ⟨hw, by simp [Gpu.openTransfer], Nat.zero_le _⟩, Nat.mul_pos hw hh, rfl⟩

/-- The end of a moved word: the transfer goes on with one word less, or is over. -/
theorem countWord_sound {g : Gpu} {p : Nat}
    (h : g.cursorAt (min (p + 2) (g.rect.w * g.rect.h))) (hp : p < g.rect.w * g.rect.h)
    (hr : g.rem = (g.rect.w * g.rect.h - p + 1) / 2) :
    g.countWord.mode = .idle ∨ (g.countWord.mode = g.mode ∧ g.countWord.transferring = true) := by
  unfold Gpu.countWord
  split
  · exact .inl rfl
  · rename_i h1
    refine .inr ⟨rfl, (transferring_iff _).mpr ⟨p + 2, ?_, ?_, ?_⟩⟩
    · rw [Nat.min_eq_left (by omega)] at h; exact h
    · show p + 2 < g.rect.w * g.rect.h; omega
    · show g.rem - 1 = (g.rect.w * g.rect.h - (p + 2) + 1) / 2; omega

/-- A data word written to a transfer in progress keeps it sound. -/
theorem receive_sound {g : Gpu} (w : Word) (hm : g.mode = .toVram) (h : g.transferring = true) :
    (g.receive w).modeSound = true ∧ (g.vramOk → (g.receive w).vramOk) := by
  obtain ⟨p, h1, h2, h3⟩ := (transferring_iff g).mp h
  obtain ⟨a1, a2, a3⟩ := takePixel_spec (w.extractLsb' 0 16) h1
  generalize hg1 : g.takePixel (w.extractLsb' 0 16) = g1 at *
  obtain ⟨b1, b2, b3⟩ := takePixel_spec (w.extractLsb' 16 16) a1
  generalize hg2 : g1.takePixel (w.extractLsb' 16 16) = g2 at *
  have e1 : g1.rect = g.rect := by rw [a2]
  have e2 : g2.rect = g.rect := by rw [b2, ← e1]
  have m2 : g2.mode = .toVram := by rw [b2, a2]; exact hm
  have r2 : g2.rem = g.rem := by rw [b2, a2]
  have hc : g2.cursorAt (min (p + 2) (g2.rect.w * g2.rect.h)) := by
    rw [e2]; rw [e1] at b1
    rwa [show min (min (p + 1) (g.rect.w * g.rect.h) + 1) (g.rect.w * g.rect.h) =
      min (p + 2) (g.rect.w * g.rect.h) by omega] at b1
  have hs := countWord_sound hc (by rw [e2]; exact h2) (by rw [r2, e2]; exact h3)
  have hv : g.vramOk → g2.countWord.vramOk := fun c => by
    have := b3 (a3 c); unfold Gpu.countWord; split <;> exact this
  simp only [Gpu.receive, hg1, hg2]
  rcases hs with hs | ⟨hs, ht⟩
  · rw [if_pos hs]; exact ⟨by simp [Gpu.modeSound, Gpu.logRegion, hs], hv⟩
  · rw [if_neg (by rw [hs, m2]; decide)]
    exact ⟨by simp [Gpu.modeSound, hs, m2, ht], hv⟩

/-- A data word read from a transfer in progress keeps it sound. -/
theorem send_sound {g : Gpu} (hm : g.mode = .fromVram) (h : g.transferring = true) :
    g.send.2.modeSound = true ∧ g.send.2.vram = g.vram := by
  obtain ⟨p, h1, h2, h3⟩ := (transferring_iff g).mp h
  obtain ⟨a1, a2, a3⟩ := getPixel_spec h1
  generalize hg1 : g.getPixel.2 = g1 at *
  obtain ⟨b1, b2, b3⟩ := getPixel_spec a1
  generalize hg2 : g1.getPixel.2 = g2 at *
  have e1 : g1.rect = g.rect := by rw [a2]
  have e2 : g2.rect = g.rect := by rw [b2, ← e1]
  have m2 : g2.mode = .fromVram := by rw [b2, a2]; exact hm
  have r2 : g2.rem = g.rem := by rw [b2, a2]
  have hc : g2.cursorAt (min (p + 2) (g2.rect.w * g2.rect.h)) := by
    rw [e2]; rw [e1] at b1
    rwa [show min (min (p + 1) (g.rect.w * g.rect.h) + 1) (g.rect.w * g.rect.h) =
      min (p + 2) (g.rect.w * g.rect.h) by omega] at b1
  have hs := countWord_sound hc (by rw [e2]; exact h2) (by rw [r2, e2]; exact h3)
  have hv : g2.countWord.vram = g.vram := by
    unfold Gpu.countWord; split <;> exact b3.trans a3
  simp only [Gpu.send, hg1, hg2]
  refine ⟨?_, hv⟩
  rcases hs with hs | ⟨hs, ht⟩
  · simp [Gpu.modeSound, hs]
  · simpa [Gpu.modeSound, hs, m2, Gpu.transferring, Gpu.pixelsLeft] using ht

/-! ## Complete commands -/

/-- Two triangles or one, inside the drawing area, then a log entry. -/
theorem polygon_drawn (k : Interp) (sh q tx se ra : Bool) (c : Word) (ws : List Word) (g : Gpu) :
    let g1 := if tx then g.setStat 0x1FF#32 (pageWord sh ws >>> 16) else g
    ∃ h r, Drawn (Drawn.area g1) g1 h ∧ g.polygon k sh q tx se ra c ws = h.logRegion r := by
  intro g1
  unfold Gpu.polygon
  simp only []
  split
  · refine ⟨_, _, ?_, rfl⟩
    have h1 := Drawn.triangle g1 k
    exact (h1 _ _ _ _).trans (by rw [← Drawn.area_congr (h1 _ _ _ _)]; exact Drawn.triangle _ k _ _ _ _)
  · exact ⟨_, _, Drawn.triangle g1 k _ _ _ _, rfl⟩

theorem drawLine_drawn (i : Interp) (sh se : Bool) (c : Word) (ws : List Word) (g : Gpu) :
    ∃ h r, Drawn (Drawn.area g) g h ∧ g.drawLine i sh se c ws = h.logRegion r :=
  ⟨_, _, Drawn.line g i _ _ _, rfl⟩

theorem drawRect_drawn (z : BitVec 2) (tx se ra : Bool) (c : Word) (ws : List Word) (g : Gpu) :
    ∃ h r, Drawn (Drawn.area g) g h ∧ g.drawRect z tx se ra c ws = h.logRegion r :=
  ⟨_, _, Drawn.rectangle g _ _ _ _, rfl⟩

/-- What a GP0 command does: it answers next, changes the unit and at most bit 1 of I_STAT, ends idle or with
a transfer open, and keeps VRAM's form. -/
theorem exec_gp0 (i : Instr) (s : State) (h : i.space = .gp0) :
    ∃ on g, exec i s = .next ((s.raiseIrq 1 on).setGpu g) ∧ g.modeSound = true ∧
      (s.gpu.vramOk → g.vramOk) := by
  have e0 : s.raiseIrq 1 false = s := by simp [State.raiseIrq, State.setIntc]
  have one : ∀ f : Gpu → Gpu, (∀ g, g.mode = .idle → (f g).modeSound = true) →
      (∀ g, g.vramOk → (f g).vramOk) →
      ∃ on g, gp0Run i f s = .next ((s.raiseIrq 1 on).setGpu g) ∧ g.modeSound = true ∧
        (s.gpu.vramOk → g.vramOk) := fun f h1 h2 =>
    ⟨false, f { s.gpu with buf := encodeWords i, mode := .idle }, by rw [e0]; rfl, h1 _ rfl,
      fun c => h2 _ c⟩
  have idle : ∀ {g : Gpu}, g.mode = .idle → g.modeSound = true := fun h => by simp [Gpu.modeSound, h]
  have draw : ∀ f : Gpu → Gpu, (∀ g, ∃ A g1 h r, g1.mode = g.mode ∧ g1.vram = g.vram ∧ Drawn A g1 h ∧
      f g = h.logRegion r) →
      ∃ on g, gp0Run i f s = .next ((s.raiseIrq 1 on).setGpu g) ∧ g.modeSound = true ∧
        (s.gpu.vramOk → g.vramOk) := fun f hf => by
    apply one
    · intro g hg
      obtain ⟨A, g1, h, r, e1, -, e3, e4⟩ := hf g
      rw [e4]; exact idle (by show h.mode = .idle; rw [e3.regs.1, e1, hg])
    · intro g hg
      obtain ⟨A, g1, h, r, -, e2, e3, e4⟩ := hf g
      rw [e4]; exact e3.canonical (by rw [Gpu.vramOk, e2]; exact hg)
  cases i <;> first | (cases h; done) | skip
  case gp0Nop a => exact one _ (fun _ => idle) fun _ c => c
  case gp0ClearCache a => exact one _ (fun _ => idle) fun _ c => c
  case gp0Fill c p z => exact draw _ fun g => ⟨_, g, _, _, rfl, rfl, Drawn.fill g _ _ _ _ _, rfl⟩
  case gp0Irq a => exact ⟨_, _, rfl, rfl, id⟩
  case gp0Polygon sh q tx se ra c ws =>
    refine draw _ fun g => ?_
    obtain ⟨h, r, h1, h2⟩ := polygon_drawn s.params.interp sh q tx se ra (c.setWidth 32) ws g
    exact ⟨_, _, h, r, by split <;> rfl, by split <;> rfl, h1, h2⟩
  case gp0Line sh i2 se i0 c ws =>
    exact draw _ fun g =>
      let ⟨h, r, h1, h2⟩ := drawLine_drawn s.params.interp sh se (c.setWidth 32) ws g
      ⟨_, g, h, r, rfl, rfl, h1, h2⟩
  case gp0Rect z tx se ra c ws =>
    exact draw _ fun g =>
      let ⟨h, r, h1, h2⟩ := drawRect_drawn z tx se ra (c.setWidth 32) ws g
      ⟨_, g, h, r, rfl, rfl, h1, h2⟩
  case gp0CopyVram a x y z => exact draw _ fun g => ⟨_, g, _, _, rfl, rfl, Drawn.copy g _ _ _ _ _ _, rfl⟩
  case gp0ToVram a d z =>
    simp only [exec, execGp0ToVram]
    exact one _ (fun g _ => openTransfer_transferring g .toVram d z) fun _ c => c
  case gp0FromVram a d z =>
    simp only [exec, execGp0FromVram]
    exact one _ (fun g _ => openTransfer_transferring g .fromVram d z) fun _ c => c
  case gp0DrawMode a =>
    simp only [exec, execGp0DrawMode]; exact one _ (fun _ h => idle h) fun _ c => c
  case gp0TexWindow a =>
    simp only [exec, execGp0TexWindow]; exact one _ (fun _ h => idle h) fun _ c => c
  case gp0AreaTl a =>
    simp only [exec, execGp0AreaTl]; exact one _ (fun _ h => idle h) fun _ c => c
  case gp0AreaBr a =>
    simp only [exec, execGp0AreaBr]; exact one _ (fun _ h => idle h) fun _ c => c
  case gp0Offset a =>
    simp only [exec, execGp0Offset]; exact one _ (fun _ h => idle h) fun _ c => c
  case gp0MaskBits a =>
    simp only [exec, execGp0MaskBits]; exact one _ (fun _ h => idle h) fun _ c => c

/-- What a GP1 command does: it answers next and changes the unit alone; a mode that was sound stays so. -/
theorem exec_gp1 (i : Instr) (s : State) (h : i.space = .gp1) :
    ∃ g, exec i s = .next (s.setGpu g) ∧ (s.gpu.modeSound = true → g.modeSound = true) ∧
      g.vram = s.gpu.vram := by
  cases i <;> first | (cases h; done) | exact ⟨_, rfl, fun m => m, rfl⟩ | exact ⟨_, rfl, fun _ => rfl, rfl⟩

/-- A complete GP0 command at the port is `exec` of the command it decodes to. -/
theorem runGp0_eq {buf : List Word} {i : Instr} {rest : List Word} (s : State)
    (h : decodeGp0 buf = .ok (i, rest)) (hs : i.space = .gp0) : runGp0 buf s = exec i s := by
  unfold runGp0; rw [h]; cases i <;> first | (cases hs; done) | rfl

/-- A complete GP1 command at the port is `exec` of the command it decodes to. -/
theorem runGp1_eq {w : Word} {i : Instr} (s : State) (h : decodeGp1 w = .ok i) (hs : i.space = .gp1) :
    runGp1 w s = exec i s := by
  unfold runGp1; rw [h]; cases i <;> first | (cases hs; done) | rfl

/-- What runs at the GP0 port is a GP0 command. -/
theorem runGp0_next {buf : List Word} {s t : State} (h : runGp0 buf s = .next t) :
    ∃ i, i.space = .gp0 ∧ exec i s = .next t := by
  cases hd : decodeGp0 buf with
  | error e => unfold runGp0 at h; rw [hd] at h; cases h
  | ok p =>
    obtain ⟨i, rest⟩ := p
    by_cases hs : i.space = .gp0
    · exact ⟨i, hs, by rw [← runGp0_eq s hd hs]; exact h⟩
    · unfold runGp0 at h; rw [hd] at h; cases i <;> first | exact absurd rfl hs | cases h

/-- What runs at the GP1 port is a GP1 command. -/
theorem runGp1_next {w : Word} {s t : State} (h : runGp1 w s = .next t) :
    ∃ i, i.space = .gp1 ∧ exec i s = .next t := by
  cases hd : decodeGp1 w with
  | error e => unfold runGp1 at h; rw [hd] at h; cases h
  | ok i =>
    by_cases hs : i.space = .gp1
    · exact ⟨i, hs, by rw [← runGp1_eq s hd hs]; exact h⟩
    · unfold runGp1 at h; rw [hd] at h; cases i <;> first | exact absurd rfl hs | cases h

/-- A write to the GP0 command machine that goes through changes the unit and at most bit 1 of I_STAT, and
keeps mode and VRAM as their forms have it. -/
theorem submit_next {w : Word} {s t : State} (h : submitCommandWord w s = .next t) :
    ∃ on g, t = (s.raiseIrq 1 on).setGpu g ∧ (s.gpu.modeSound = true → g.modeSound = true) ∧
      (s.gpu.modeSound = true → s.gpu.vramOk → g.vramOk) := by
  have e0 : s.raiseIrq 1 false = s := by simp [State.raiseIrq, State.setIntc]
  have run : ∀ {buf}, runGp0 buf s = .next t → ∃ on g, t = (s.raiseIrq 1 on).setGpu g ∧
      (s.gpu.modeSound = true → g.modeSound = true) ∧
      (s.gpu.modeSound = true → s.gpu.vramOk → g.vramOk) := fun h => by
    obtain ⟨i, hi, h1⟩ := runGp0_next h
    obtain ⟨on, g, h2, h3, h4⟩ := exec_gp0 i s hi
    rw [h1] at h2; cases h2
    exact ⟨on, g, rfl, fun _ => h3, fun _ => h4⟩
  have go : ∀ g, (.next (s.setGpu g) : Out) = .next t → (s.gpu.modeSound = true → g.modeSound = true) →
      (s.gpu.modeSound = true → s.gpu.vramOk → g.vramOk) → ∃ on g, t = (s.raiseIrq 1 on).setGpu g ∧
      (s.gpu.modeSound = true → g.modeSound = true) ∧
      (s.gpu.modeSound = true → s.gpu.vramOk → g.vramOk) := fun g e a b =>
    ⟨false, g, by rw [e0]; exact (Host.Outcome.next.inj e).symm, a, b⟩
  unfold submitCommandWord at h
  split at h
  · split at h
    · cases h
    · rename_i n hn
      split at h
      · exact run h
      · refine go _ h (fun _ => ?_) fun _ c => c
        simp only [Gpu.modeSound, List.headD_cons, hn]
        simp
        omega
  · rename_i n hn
    split at h
    · refine go _ h (fun m => ?_) fun _ c => c
      simp only [Gpu.modeSound, hn, Bool.and_eq_true, decide_eq_true_eq, beq_iff_eq, bne_iff_ne, ne_eq] at m
      obtain ⟨⟨m1, m2⟩, m3⟩ := m
      have hb : (s.gpu.buf ++ [w]).headD 0 = s.gpu.buf.headD 0 := by
        cases hb : s.gpu.buf with
        | nil => exact absurd hb m3
        | cons => rfl
      simp only [Gpu.modeSound, hb, m2]
      simp
      omega
    · exact run h
  · rename_i hm
    have tr : s.gpu.modeSound = true → s.gpu.transferring = true := fun m => by
      simpa [Gpu.modeSound, hm] using m
    exact go _ h (fun m => (receive_sound w hm (tr m)).1) fun m => (receive_sound w hm (tr m)).2
  · cases h

end Sys2Proof.Machine
end

