-- ==== Sys2Proof/Laws/Dma.lean ====
section
/-!
SUPPORT. What the DMA engine's slot is made of: a property that each of its seven primitive effects keeps, the
whole slot keeps.
-/

namespace Sys2Proof.Machine

/-- A property that every primitive effect of the engine keeps. -/
structure DmaKeeps (P : State → Prop) : Prop where
  ram : ∀ s a v, P s → P (setRamWord a v s)
  submit : ∀ w s t, P s → submitCommandWord w s = .next t → P t
  read : ∀ s, P s → P (gpuRead s).2
  pop : ∀ s, P s → P (s.setCdc s.cdc.popWord.2)
  blocks : ∀ n s, P s → P (finishBlocks n s)
  complete : ∀ n s, n < 7 → P s → P (complete n s)
  madr : ∀ s v, P s → P (s.setDma (s.dma.setChan 2 { s.dma.chan 2 with madr := v }))

namespace DmaKeeps

variable {P : State → Prop}

theorem linkedNodes (k : DmaKeeps P) {fuel : Nat} {a h h' : Word} {s t : State} (hs : P s)
    (e : Machine.linkedNodes fuel a h s = .ok (h', t)) : P t := by
  induction fuel generalizing a h s with
  | zero => cases e
  | succ fuel ih =>
    simp only [Machine.linkedNodes] at e
    split at e
    · cases e
    · cases e
    · rename_i u hu
      have hp := repeatOut_keeps (fun j u v _ pu hv => k.submit _ _ _ pu hv) hs hu
      split at e
      · cases e; exact hp
      · exact ih hp e

theorem endGpuTransfer (k : DmaKeeps P) {s t : State} (hs : P s) (e : Machine.endGpuTransfer s = .next t) :
    P t := by
  unfold Machine.endGpuTransfer at e
  split at e
  · cases e; exact k.complete 2 _ (by decide) (k.blocks 2 _ hs)
  · cases e

theorem gpuBlocks (k : DmaKeeps P) {s t : State} (hs : P s) (e : Machine.gpuBlocks s = .next t) : P t := by
  unfold Machine.gpuBlocks at e
  simp only [] at e
  split at e
  · obtain ⟨u, h1, h2⟩ := andThen_next.mp e
    exact k.endGpuTransfer (repeatOut_keeps (fun j u v _ pu hv => k.submit _ _ _ pu hv) hs h1) h2
  · split at e
    · obtain ⟨u, h1, h2⟩ := andThen_next.mp e
      refine k.endGpuTransfer (repeatOut_keeps (fun j u v _ pu hv => ?_) hs h1) h2
      cases hv; exact k.ram _ _ _ (k.read _ pu)
    · cases e

theorem discBlocks (k : DmaKeeps P) {s t : State} (hs : P s) (e : Machine.discBlocks s = .next t) : P t := by
  unfold Machine.discBlocks at e
  simp only [] at e
  split at e
  · cases e
  · obtain ⟨u, h1, h2⟩ := andThen_next.mp e
    cases h2
    refine k.complete 3 _ (by decide) (k.blocks 3 _ (repeatOut_keeps (fun j u v _ pu hv => ?_) hs h1))
    cases hv; exact k.ram _ _ _ (k.pop _ pu)

theorem gpuList (k : DmaKeeps P) {s t : State} (hs : P s) (e : Machine.gpuList s = .next t) : P t := by
  unfold Machine.gpuList at e
  split at e
  · cases e
  · rename_i h u hu
    exact k.endGpuTransfer (k.madr _ _ (k.linkedNodes hs hu)) e

theorem clearTable (k : DmaKeeps P) {s t : State} (hs : P s) (e : Machine.clearTable s = .next t) : P t := by
  unfold Machine.clearTable at e
  obtain ⟨u, h1, h2⟩ := andThen_next.mp e
  cases h2
  refine k.complete 6 _ (by decide) (repeatOut_keeps (fun j u v _ pu hv => ?_) hs h1)
  cases hv; exact k.ram _ _ _ pu

theorem transfer (k : DmaKeeps P) {n : Nat} {s t : State} (hs : P s) (e : Machine.transfer n s = .next t) :
    P t := by
  unfold Machine.transfer at e
  simp only [] at e
  split at e
  · exact k.clearTable hs e
  · exact k.gpuBlocks hs e
  · exact k.gpuBlocks hs e
  · split at e
    · exact k.gpuList hs e
    · cases e
  · exact k.discBlocks hs e
  · exact k.discBlocks hs e
  · cases e

/-- The whole slot keeps what its primitive effects keep. -/
theorem slot (k : DmaKeeps P) {s t : State} (hs : P s) (e : dmaSlot s = .next t) : P t := by
  refine repeatOut_keeps (fun n u v _ pu hv => ?_) hs e
  unfold dmaChannel at hv
  split at hv
  · exact k.transfer pu hv
  · cases hv; exact pu

theorem listLast (k : DmaKeeps P) {fuel : Nat} {a : Word} {s : State} (hs : P s) :
    P (Machine.listLast fuel a s) := by
  induction fuel generalizing a s with
  | zero => exact hs
  | succ fuel ih =>
    simp only [Machine.listLast]
    split
    · rename_i u hu
      have hp := repeatOut_keeps (fun j u v _ pu hv => k.submit _ _ _ pu hv) hs hu
      split
      · exact hp
      · exact ih hp
    · exact repeatLast_keeps (fun j u v _ pu hv => k.submit _ _ _ pu hv) hs

theorem transferLast (k : DmaKeeps P) {n : Nat} {s : State} (hs : P s) : P (Machine.transferLast n s) := by
  have blocks : P (if (s.dma.chan 2).toDevice then repeatLast (s.dma.chan 2).total (wordToGpu (s.dma.chan 2)) s
      else if s.gpu.mode = .fromVram then
        repeatLast (s.dma.chan 2).total (wordFromGpu (s.dma.chan 2)) s else s) := by
    split
    · exact repeatLast_keeps (fun j u v _ pu hv => k.submit _ _ _ pu hv) hs
    · split
      · refine repeatLast_keeps (fun j u v _ pu hv => ?_) hs
        cases hv; exact k.ram _ _ _ (k.read _ pu)
      · exact hs
  unfold Machine.transferLast
  simp only []
  split
  · exact blocks
  · exact blocks
  · split
    · exact k.listLast hs
    · exact hs
  · exact hs

/-- What has landed when the slot halts has what its primitive effects keep. -/
theorem slotLast (k : DmaKeeps P) {n : Nat} {s : State} (hs : P s) : P (Machine.slotLast n s) := by
  induction n with
  | zero => exact hs
  | succ n ih =>
    rw [Machine.slotLast]
    split
    · rename_i t h
      refine k.transferLast (repeatOut_keeps (fun n u v _ pu hv => ?_) hs h)
      unfold dmaChannel at hv
      split at hv
      · exact k.transfer pu hv
      · cases hv; exact pu
    · exact ih

end DmaKeeps

/-- A linked list that goes through has landed whole. -/
theorem listLast_next {fuel : Nat} {a h h' : Word} {s t : State} (e : linkedNodes fuel a h s = .ok (h', t)) :
    listLast fuel a s = t := by
  induction fuel generalizing a h s with
  | zero => cases e
  | succ fuel ih =>
    simp only [linkedNodes] at e
    simp only [listLast]
    split at e
    · cases e
    · cases e
    · rename_i u hu
      simp only [hu]
      split at e
      · cases e; rw [if_pos ‹_›]
      · rw [if_neg ‹_›]; exact ih e

/-- Where channel `n` is the one that halts, what has landed is its own. -/
theorem slotLast_fault {n m : Nat} {s u : State} {e : Fault} (hn : n < m) (h : repeatOut n dmaChannel s = .next u)
    (he : dmaChannel n u = .fault e) : slotLast m s = transferLast n u := by
  induction m with
  | zero => omega
  | succ m ih =>
    rw [slotLast]
    rcases Nat.lt_succ_iff_lt_or_eq.mp hn with hn | rfl
    · rw [repeatOut_fault hn h he]; exact ih hn
    · rw [h]

/-- The halting device is left in any state, nothing else is. -/
theorem haltedSlot_changes (e : Fault) (s : State) :
    (slotLast 7 s).changesOnly
      (if e.record.map (·.component) = some .graphics then [.dma, .gpu] else [.dma]) (haltedSlot e s) := by
  intro p hp
  unfold haltedSlot
  split <;> rename_i h
  · rw [if_pos h] at hp
    cases p <;> simp_all [State.sameOn, State.reg, State.byte]
  · rw [if_neg h] at hp
    cases p <;> simp_all only [State.sameOn] <;> simp_all [State.reg, State.byte]

/-! ## The stored bits of the engine (R562, R568) -/

/-- No CHCR and no DICR holds a bit that is not stored. -/
def Dma.bitsOk (d : Dma) : Prop :=
  (∀ n, n < 7 → (d.chan n).chcr &&& ~~~chcrMask n = 0) ∧ d.dicr &&& ~~~0x7FFF803F#32 = 0

theorem dmaBits_iff (s : State) : s.dmaBits = true ↔ s.dma.bitsOk := by
  simp [State.dmaBits, Dma.bitsOk]

@[simp] theorem chan_setChan (d : Dma) (n m : Nat) (c : Channel) :
    (d.setChan n c).chan m = if m = n ∧ n < 7 then c else d.chan m := by
  unfold Dma.chan Dma.setChan
  by_cases h : m = n
  · subst h
    by_cases hm : m < 7 <;> simp [hm]
  · simp [h, Ne.symm h]

/-- A channel update that keeps the stored bits of its CHCR keeps all of them. -/
theorem bitsOk_setChan {d : Dma} {n : Nat} {c : Channel} (h : d.bitsOk)
    (hc : n < 7 → c.chcr &&& ~~~chcrMask n = 0) : (d.setChan n c).bitsOk := by
  refine ⟨fun m hm => ?_, h.2⟩
  rw [chan_setChan]
  split
  · rename_i e; rw [e.1]; exact hc e.2
  · exact h.1 m hm

/-- Only completion clears START: after a halt of R575 it is set. -/
theorem haltedEngine_start {e : Fault} {t : State} (h : endsUnready e t = true) :
    ((haltedEngine e t).chan 2).chcr.getLsbD 24 = true := by
  simp [haltedEngine, h, bitWord]

end Sys2Proof.Machine
end

