-- ==== Sys2Proof/Laws/PerInstr.lean ====
section
/-!
SUPPORT. One lemma per instruction. Family Shape: a well-formed instruction has between one and twelve words, and
exactly one outside GP0 (30_encoding.md R120, R131, 47_gpu_commands.md R436).
-/

namespace Sys2Proof.Laws.Shape

/-- The number of words of a well-formed instruction. -/
def Statement (i : Instr) : Prop :=
  i.wf = true →
    1 ≤ (encodeWords i).length ∧ (encodeWords i).length ≤ 12 ∧
      (i.space ≠ .gp0 → (encodeWords i).length = 1)

/-- An instruction of one word. -/
theorem of_one {i : Instr} (h : (encodeWords i).length = 1) : Statement i :=
  fun _ => ⟨h.ge, by omega, fun _ => h⟩

/-- A GP0 command of one to twelve words. -/
theorem of_gp0 {i : Instr} (h : i.wf = true → 1 ≤ (encodeWords i).length ∧ (encodeWords i).length ≤ 12)
    (hs : i.space = .gp0) : Statement i :=
  fun w => ⟨(h w).1, (h w).2, fun n => absurd hs n⟩

theorem add (rd rs rt : RegNum) : Statement (.add rd rs rt) := of_one rfl

theorem addu (rd rs rt : RegNum) : Statement (.addu rd rs rt) := of_one rfl

theorem sub (rd rs rt : RegNum) : Statement (.sub rd rs rt) := of_one rfl

theorem subu (rd rs rt : RegNum) : Statement (.subu rd rs rt) := of_one rfl

theorem and (rd rs rt : RegNum) : Statement (.and rd rs rt) := of_one rfl

theorem or (rd rs rt : RegNum) : Statement (.or rd rs rt) := of_one rfl

theorem xor (rd rs rt : RegNum) : Statement (.xor rd rs rt) := of_one rfl

theorem nor (rd rs rt : RegNum) : Statement (.nor rd rs rt) := of_one rfl

theorem slt (rd rs rt : RegNum) : Statement (.slt rd rs rt) := of_one rfl

theorem sltu (rd rs rt : RegNum) : Statement (.sltu rd rs rt) := of_one rfl

theorem addi (rt rs : RegNum) (imm : BitVec 16) : Statement (.addi rt rs imm) := of_one rfl

theorem addiu (rt rs : RegNum) (imm : BitVec 16) : Statement (.addiu rt rs imm) := of_one rfl

theorem slti (rt rs : RegNum) (imm : BitVec 16) : Statement (.slti rt rs imm) := of_one rfl

theorem sltiu (rt rs : RegNum) (imm : BitVec 16) : Statement (.sltiu rt rs imm) := of_one rfl

theorem andi (rt rs : RegNum) (imm : BitVec 16) : Statement (.andi rt rs imm) := of_one rfl

theorem ori (rt rs : RegNum) (imm : BitVec 16) : Statement (.ori rt rs imm) := of_one rfl

theorem xori (rt rs : RegNum) (imm : BitVec 16) : Statement (.xori rt rs imm) := of_one rfl

theorem lui (rt : RegNum) (imm : BitVec 16) : Statement (.lui rt imm) := of_one rfl

theorem sll (rd rt : RegNum) (shamt : BitVec 5) : Statement (.sll rd rt shamt) := of_one rfl

theorem srl (rd rt : RegNum) (shamt : BitVec 5) : Statement (.srl rd rt shamt) := of_one rfl

theorem sra (rd rt : RegNum) (shamt : BitVec 5) : Statement (.sra rd rt shamt) := of_one rfl

theorem sllv (rd rt rs : RegNum) : Statement (.sllv rd rt rs) := of_one rfl

theorem srlv (rd rt rs : RegNum) : Statement (.srlv rd rt rs) := of_one rfl

theorem srav (rd rt rs : RegNum) : Statement (.srav rd rt rs) := of_one rfl

theorem mult (rs rt : RegNum) : Statement (.mult rs rt) := of_one rfl

theorem multu (rs rt : RegNum) : Statement (.multu rs rt) := of_one rfl

theorem div (rs rt : RegNum) : Statement (.div rs rt) := of_one rfl

theorem divu (rs rt : RegNum) : Statement (.divu rs rt) := of_one rfl

theorem mfhi (rd : RegNum) : Statement (.mfhi rd) := of_one rfl

theorem mflo (rd : RegNum) : Statement (.mflo rd) := of_one rfl

theorem mthi (rs : RegNum) : Statement (.mthi rs) := of_one rfl

theorem mtlo (rs : RegNum) : Statement (.mtlo rs) := of_one rfl

theorem lb (rt rs : RegNum) (imm : BitVec 16) : Statement (.lb rt rs imm) := of_one rfl

theorem lbu (rt rs : RegNum) (imm : BitVec 16) : Statement (.lbu rt rs imm) := of_one rfl

theorem lh (rt rs : RegNum) (imm : BitVec 16) : Statement (.lh rt rs imm) := of_one rfl

theorem lhu (rt rs : RegNum) (imm : BitVec 16) : Statement (.lhu rt rs imm) := of_one rfl

theorem lw (rt rs : RegNum) (imm : BitVec 16) : Statement (.lw rt rs imm) := of_one rfl

theorem lwl (rt rs : RegNum) (imm : BitVec 16) : Statement (.lwl rt rs imm) := of_one rfl

theorem lwr (rt rs : RegNum) (imm : BitVec 16) : Statement (.lwr rt rs imm) := of_one rfl

theorem sb (rt rs : RegNum) (imm : BitVec 16) : Statement (.sb rt rs imm) := of_one rfl

theorem sh (rt rs : RegNum) (imm : BitVec 16) : Statement (.sh rt rs imm) := of_one rfl

theorem sw (rt rs : RegNum) (imm : BitVec 16) : Statement (.sw rt rs imm) := of_one rfl

theorem swl (rt rs : RegNum) (imm : BitVec 16) : Statement (.swl rt rs imm) := of_one rfl

theorem swr (rt rs : RegNum) (imm : BitVec 16) : Statement (.swr rt rs imm) := of_one rfl

theorem beq (rs rt : RegNum) (imm : BitVec 16) : Statement (.beq rs rt imm) := of_one rfl

theorem bne (rs rt : RegNum) (imm : BitVec 16) : Statement (.bne rs rt imm) := of_one rfl

theorem blez (rs : RegNum) (imm : BitVec 16) : Statement (.blez rs imm) := of_one rfl

theorem bgtz (rs : RegNum) (imm : BitVec 16) : Statement (.bgtz rs imm) := of_one rfl

theorem bltz (rs : RegNum) (imm : BitVec 16) : Statement (.bltz rs imm) := of_one rfl

theorem bgez (rs : RegNum) (imm : BitVec 16) : Statement (.bgez rs imm) := of_one rfl

theorem bltzal (rs : RegNum) (imm : BitVec 16) : Statement (.bltzal rs imm) := of_one rfl

theorem bgezal (rs : RegNum) (imm : BitVec 16) : Statement (.bgezal rs imm) := of_one rfl

theorem j (target : BitVec 26) : Statement (.j target) := of_one rfl

theorem jal (target : BitVec 26) : Statement (.jal target) := of_one rfl

theorem jr (rs : RegNum) : Statement (.jr rs) := of_one rfl

theorem jalr (rd rs : RegNum) : Statement (.jalr rd rs) := of_one rfl

theorem syscall (code : BitVec 20) : Statement (.syscall code) := of_one rfl

theorem brk (code : BitVec 20) : Statement (.brk code) := of_one rfl

theorem mfc0 (rt rd : RegNum) : Statement (.mfc0 rt rd) := of_one rfl

theorem mtc0 (rt rd : RegNum) : Statement (.mtc0 rt rd) := of_one rfl

theorem rfe : Statement .rfe := of_one rfl

theorem mfc2 (rt rd : RegNum) : Statement (.mfc2 rt rd) := of_one rfl

theorem cfc2 (rt rd : RegNum) : Statement (.cfc2 rt rd) := of_one rfl

theorem mtc2 (rt rd : RegNum) : Statement (.mtc2 rt rd) := of_one rfl

theorem ctc2 (rt rd : RegNum) : Statement (.ctc2 rt rd) := of_one rfl

theorem lwc2 (rt rs : RegNum) (imm : BitVec 16) : Statement (.lwc2 rt rs imm) := of_one rfl

theorem swc2 (rt rs : RegNum) (imm : BitVec 16) : Statement (.swc2 rt rs imm) := of_one rfl

theorem gteRtps (a : GteArgs) : Statement (.gteRtps a) := of_one rfl

theorem gteNclip (a : GteArgs) : Statement (.gteNclip a) := of_one rfl

theorem gteOp (a : GteArgs) : Statement (.gteOp a) := of_one rfl

theorem gteDpcs (a : GteArgs) : Statement (.gteDpcs a) := of_one rfl

theorem gteIntpl (a : GteArgs) : Statement (.gteIntpl a) := of_one rfl

theorem gteMvmva (a : GteArgs) : Statement (.gteMvmva a) := of_one rfl

theorem gteNcds (a : GteArgs) : Statement (.gteNcds a) := of_one rfl

theorem gteCdp (a : GteArgs) : Statement (.gteCdp a) := of_one rfl

theorem gteNcdt (a : GteArgs) : Statement (.gteNcdt a) := of_one rfl

theorem gteNccs (a : GteArgs) : Statement (.gteNccs a) := of_one rfl

theorem gteCc (a : GteArgs) : Statement (.gteCc a) := of_one rfl

theorem gteNcs (a : GteArgs) : Statement (.gteNcs a) := of_one rfl

theorem gteNct (a : GteArgs) : Statement (.gteNct a) := of_one rfl

theorem gteSqr (a : GteArgs) : Statement (.gteSqr a) := of_one rfl

theorem gteDcpl (a : GteArgs) : Statement (.gteDcpl a) := of_one rfl

theorem gteDpct (a : GteArgs) : Statement (.gteDpct a) := of_one rfl

theorem gteAvsz3 (a : GteArgs) : Statement (.gteAvsz3 a) := of_one rfl

theorem gteAvsz4 (a : GteArgs) : Statement (.gteAvsz4 a) := of_one rfl

theorem gteRtpt (a : GteArgs) : Statement (.gteRtpt a) := of_one rfl

theorem gteGpf (a : GteArgs) : Statement (.gteGpf a) := of_one rfl

theorem gteGpl (a : GteArgs) : Statement (.gteGpl a) := of_one rfl

theorem gteNcct (a : GteArgs) : Statement (.gteNcct a) := of_one rfl

theorem gp0Nop (arg : BitVec 24) : Statement (.gp0Nop arg) := of_one rfl

theorem gp0ClearCache (arg : BitVec 24) : Statement (.gp0ClearCache arg) := of_one rfl

theorem gp0Fill (colour : BitVec 24) (pos size : Word) : Statement (.gp0Fill colour pos size) :=
  of_gp0 (fun _ => by simp [encodeWords]) rfl

theorem gp0Irq (arg : BitVec 24) : Statement (.gp0Irq arg) := of_one rfl

theorem gp0Polygon (shaded quad textured semi raw : Bool) (colour : BitVec 24) (args : List Word) :
    Statement (.gp0Polygon shaded quad textured semi raw colour args) :=
  of_gp0 (fun w => by
    have h := eq_of_beq (show (args.length == _) = true from w)
    simp only [encodeWords, List.length_cons, h, polygonArgs]
    (repeat' split) <;> omega) rfl

theorem gp0Line (shaded ign2 semi ign0 : Bool) (colour : BitVec 24) (args : List Word) :
    Statement (.gp0Line shaded ign2 semi ign0 colour args) :=
  of_gp0 (fun w => by
    have h := eq_of_beq (show (args.length == _) = true from w)
    simp only [encodeWords, List.length_cons, h, lineArgs]
    (repeat' split) <;> omega) rfl

theorem gp0Rect (size : BitVec 2) (textured semi raw : Bool) (colour : BitVec 24) (args : List Word) :
    Statement (.gp0Rect size textured semi raw colour args) :=
  of_gp0 (fun w => by
    have h := eq_of_beq (show (args.length == _) = true from w)
    simp only [encodeWords, List.length_cons, h, rectArgs]
    (repeat' split) <;> omega) rfl

theorem gp0CopyVram (arg : BitVec 24) (src dst size : Word) : Statement (.gp0CopyVram arg src dst size) :=
  of_gp0 (fun _ => by simp [encodeWords]) rfl

theorem gp0ToVram (arg : BitVec 24) (dst size : Word) : Statement (.gp0ToVram arg dst size) :=
  of_gp0 (fun _ => by simp [encodeWords]) rfl

theorem gp0FromVram (arg : BitVec 24) (src size : Word) : Statement (.gp0FromVram arg src size) :=
  of_gp0 (fun _ => by simp [encodeWords]) rfl

theorem gp0DrawMode (arg : BitVec 24) : Statement (.gp0DrawMode arg) := of_one rfl

theorem gp0TexWindow (arg : BitVec 24) : Statement (.gp0TexWindow arg) := of_one rfl

theorem gp0AreaTl (arg : BitVec 24) : Statement (.gp0AreaTl arg) := of_one rfl

theorem gp0AreaBr (arg : BitVec 24) : Statement (.gp0AreaBr arg) := of_one rfl

theorem gp0Offset (arg : BitVec 24) : Statement (.gp0Offset arg) := of_one rfl

theorem gp0MaskBits (arg : BitVec 24) : Statement (.gp0MaskBits arg) := of_one rfl

theorem gp1Reset (arg : BitVec 24) : Statement (.gp1Reset arg) := of_one rfl

theorem gp1ResetBuffer (arg : BitVec 24) : Statement (.gp1ResetBuffer arg) := of_one rfl

theorem gp1AckIrq (arg : BitVec 24) : Statement (.gp1AckIrq arg) := of_one rfl

theorem gp1DisplayEnable (arg : BitVec 24) : Statement (.gp1DisplayEnable arg) := of_one rfl

theorem gp1DmaDirection (arg : BitVec 24) : Statement (.gp1DmaDirection arg) := of_one rfl

theorem gp1DisplayStart (arg : BitVec 24) : Statement (.gp1DisplayStart arg) := of_one rfl

theorem gp1HRange (arg : BitVec 24) : Statement (.gp1HRange arg) := of_one rfl

theorem gp1VRange (arg : BitVec 24) : Statement (.gp1VRange arg) := of_one rfl

theorem gp1DisplayMode (arg : BitVec 24) : Statement (.gp1DisplayMode arg) := of_one rfl

theorem gp1GetInfo (arg : BitVec 24) : Statement (.gp1GetInfo arg) := of_one rfl

theorem cdcGetstat : Statement .cdcGetstat := of_one rfl

theorem cdcSetloc : Statement .cdcSetloc := of_one rfl

theorem cdcPlay : Statement .cdcPlay := of_one rfl

theorem cdcReadN : Statement .cdcReadN := of_one rfl

theorem cdcMotorOn : Statement .cdcMotorOn := of_one rfl

theorem cdcStop : Statement .cdcStop := of_one rfl

theorem cdcPause : Statement .cdcPause := of_one rfl

theorem cdcInit : Statement .cdcInit := of_one rfl

theorem cdcMute : Statement .cdcMute := of_one rfl

theorem cdcDemute : Statement .cdcDemute := of_one rfl

theorem cdcSetfilter : Statement .cdcSetfilter := of_one rfl

theorem cdcSetmode : Statement .cdcSetmode := of_one rfl

theorem cdcGetparam : Statement .cdcGetparam := of_one rfl

theorem cdcGetlocL : Statement .cdcGetlocL := of_one rfl

theorem cdcGetlocP : Statement .cdcGetlocP := of_one rfl

theorem cdcGetTN : Statement .cdcGetTN := of_one rfl

theorem cdcGetTD : Statement .cdcGetTD := of_one rfl

theorem cdcSeekL : Statement .cdcSeekL := of_one rfl

theorem cdcSeekP : Statement .cdcSeekP := of_one rfl

theorem cdcTest : Statement .cdcTest := of_one rfl

theorem cdcGetID : Statement .cdcGetID := of_one rfl

theorem cdcReadS : Statement .cdcReadS := of_one rfl

theorem cdcReadTOC : Statement .cdcReadTOC := of_one rfl

end Sys2Proof.Laws.Shape
end

