-- ==== Sys2Proof/Laws/Step.lean ====
section
/-!
SUPPORT. What one processor instruction can do, said once, and the parts of a step.
-/

namespace Sys2Proof.Machine

/-! ## One processor instruction -/

/-- Every way a processor instruction can leave the state. -/
inductive Effect (s : State) : State → Prop where
  | same : Effect s s
  | wrote (d v) : Effect s (s.setReg d v)
  | hi (v) : Effect s (s.setHi v)
  | lo (v) : Effect s (s.setLo v)
  | pair (h l) : Effect s ((s.setHi h).setLo l)
  | trapped (e epc bd t) (h : raiseAt e epc bd s = .next t) : Effect s t
  | posted (d v) : Effect s (s.postLoad d v)
  | loaded (pa n v u d x) (h : busRead pa n s = .ok (v, u)) : Effect s (u.postLoad d x)
  | stored (pa n v t) (h : busWrite pa n v s = .next t) : Effect s t
  | merged (pa v u w t) (h : busRead pa .word s = .ok (v, u)) (k : busWrite pa .word w u = .next t) :
    Effect s t
  | branched (x) : Effect s (s.postBranch x)
  | linked (d v x) : Effect s ((s.setReg d v).postBranch x)
  | cop0 (n v c) (h : State.writeCop0 s.cop0 n v = some c) : Effect s (s.setCop0 c)
  | returned : Effect s (returnFromException s)
  | gte (g) : Effect s (s.setGte g)
  | gteLoaded (pa v u g) (h : busRead pa .word s = .ok (v, u)) : Effect s (u.setGte g)

namespace Effect

variable {s t : State}

theorem ofResult {d : RegNum} {v : Word} (h : writeResult d v s = .next t) : Effect s t := by
  cases h; exact .wrote d v

theorem ofOverflow {o : Bool} {d : RegNum} {v : Word} (h : writeUnlessOverflow o d v s = .next t) :
    Effect s t := by
  unfold writeUnlessOverflow at h
  split at h
  · exact .trapped _ _ _ _ h
  · exact ofResult h

theorem ofPair {a b : Word} (h : writePair a b s = .next t) : Effect s t := by cases h; exact .pair a b

theorem ofLoad {n : Width} {f : Word → Word} {rt rs : RegNum} {imm : BitVec 16}
    (h : loadWith n f rt rs imm s = .next t) : Effect s t := by
  rcases memRead_next h with ⟨-, h⟩ | ⟨v, u, h1, h2⟩
  · exact .trapped _ _ _ _ h
  · cases h2; exact .loaded _ _ _ _ _ _ h1

theorem ofMerged {f : Nat → Word → Word → Word} {rt rs : RegNum} {imm : BitVec 16}
    (h : loadMerged f rt rs imm s = .next t) : Effect s t := by
  obtain ⟨v, u, h1, h2⟩ := withRead_next.mp h
  cases h2; exact .loaded _ _ _ _ _ _ h1

theorem ofStore {n : Width} {v : Word} {rs : RegNum} {imm : BitVec 16}
    (h : storeValue n v rs imm s = .next t) : Effect s t := by
  rcases memWrite_next h with ⟨-, h⟩ | h | h
  · exact .trapped _ _ _ _ h
  · rw [h]; exact .same
  · exact .stored _ _ _ _ h

theorem ofStoreMerged {f : Nat → Word → Word → Word} {rt rs : RegNum} {imm : BitVec 16}
    (h : storeMerged f rt rs imm s = .next t) : Effect s t := by
  unfold storeMerged at h
  split at h
  · cases h; exact .same
  · obtain ⟨v, u, h1, h2⟩ := withRead_next.mp h
    exact .merged _ _ _ _ _ h1 h2

theorem ofBranch {c : Bool} {x : Word} (h : branchIf c x s = .next t) : Effect s t := by
  unfold branchIf at h; cases h
  split
  · exact .branched x
  · exact .same

theorem ofLink {d : RegNum} {c : Bool} {x : Word} (h : linkThen d c x s = .next t) : Effect s t := by
  unfold linkThen branchIf at h; cases h
  split
  · exact .linked _ _ x
  · exact .wrote _ _

theorem ofGte {f : Gte → Gte} (h : gteRun f s = .next t) : Effect s t := by cases h; exact .gte _

end Effect

/-- A processor instruction that answers next has one of the effects. -/
theorem exec_effect {i : Instr} {s t : State} (hs : i.space = .cpu) (h : exec i s = .next t) : Effect s t := by
  cases i
  case addu | subu | and | or | xor | nor | slt | sltu | addiu | slti | sltiu | andi | ori | xori | lui |
      sll | srl | sra | sllv | srlv | srav | mfhi | mflo =>
    simp only [exec, execAddu, execSubu, execAnd, execOr, execXor, execNor, execSlt, execSltu, execAddiu,
      execSlti, execSltiu, execAndi, execOri, execXori, execLui, execSll, execSrl, execSra, execSllv,
      execSrlv, execSrav, execMfhi, execMflo] at h
    exact Effect.ofResult h
  case add | sub | addi =>
    simp only [exec, execAdd, execSub, execAddi] at h
    exact Effect.ofOverflow h
  case mult | multu | div | divu =>
    simp only [exec, execMult, execMultu, execDiv, execDivu] at h
    exact Effect.ofPair h
  case lb | lbu | lh | lhu | lw =>
    simp only [exec, execLb, execLbu, execLh, execLhu, execLw] at h
    exact Effect.ofLoad h
  case lwl | lwr =>
    simp only [exec, execLwl, execLwr] at h
    exact Effect.ofMerged h
  case sb | sh | sw | swc2 =>
    simp only [exec, execSb, execSh, execSw, execSwc2] at h
    exact Effect.ofStore h
  case swl | swr =>
    simp only [exec, execSwl, execSwr] at h
    exact Effect.ofStoreMerged h
  case beq | bne | blez | bgtz | bltz | bgez | j | jr =>
    simp only [exec, execBeq, execBne, execBlez, execBgtz, execBltz, execBgez, execJ, execJr] at h
    exact Effect.ofBranch h
  case bltzal | bgezal | jal | jalr =>
    simp only [exec, execBltzal, execBgezal, execJal, execJalr] at h
    exact Effect.ofLink h
  case syscall | brk =>
    exact .trapped _ _ _ _ h
  case mthi =>
    cases h; exact .hi _
  case mtlo =>
    cases h; exact .lo _
  case mfc2 | cfc2 =>
    cases h; exact .posted _ _
  case mtc2 | ctc2 =>
    cases h; exact .gte _
  case rfe =>
    cases h; exact .returned
  case gteRtps | gteNclip | gteOp | gteDpcs | gteIntpl | gteNcds | gteCdp | gteNcdt | gteNccs | gteCc |
      gteNcs | gteNct | gteSqr | gteDcpl | gteDpct | gteAvsz3 | gteAvsz4 | gteRtpt | gteGpf | gteGpl |
      gteNcct =>
    simp only [exec, execGteRtps, execGteNclip, execGteOp, execGteDpcs, execGteIntpl, execGteNcds,
      execGteCdp, execGteNcdt, execGteNccs, execGteCc, execGteNcs, execGteNct, execGteSqr, execGteDcpl,
      execGteDpct, execGteAvsz3, execGteAvsz4, execGteRtpt, execGteGpf, execGteGpl, execGteNcct] at h
    exact Effect.ofGte h
  case lwc2 rt rs imm =>
    rcases memRead_next h with ⟨-, h⟩ | ⟨v, u, h1, h2⟩
    · exact .trapped _ _ _ _ h
    · cases h2; exact .gteLoaded _ _ _ _ h1
  case mfc0 rt rd =>
    simp only [exec, execMfc0] at h
    split at h
    · cases h; exact .posted _ _
    · cases h
  case mtc0 rt rd =>
    simp only [exec, execMtc0] at h
    split at h
    · cases h; exact .cop0 _ _ _ (by assumption)
    · cases h
  case gteMvmva a =>
    simp only [exec, execGteMvmva] at h
    split at h
    · exact Effect.ofGte h
    · cases h
  all_goals cases hs

/-! ## Decoding a fetched word -/

theorem strict_ok {b : Bool} {i j : Instr} (h : strict b i = .ok j) : j = i := by
  unfold strict at h; split at h <;> cases h; rfl

/-- What the processor's decoder accepts is a processor instruction. -/
theorem decodeCpu_space {w : Word} {i : Instr} (h : decodeCpu w = .ok i) : i.space = .cpu := by
  unfold decodeCpu decodeSpecial decodeRegimm decodeCop0 decodeCop2 decodeGte at h
  simp only [] at h
  repeat' split at h
  all_goals first | (cases h; done) | (cases h; rfl) | (rw [strict_ok h]; rfl)

/-! ## The parts of a step -/

/-- A fetch that answers next has trapped, or has read a word that ran. -/
theorem fetch_next {s t : State} {k : Word → State → Out} (h : fetch s k = .next t) :
    (misaligned s.pc .word = true ∧ raiseAt (.adEL s.pc) s.pc false s = .next t) ∨
      ∃ w u, busRead (phys s.pc) .word s = .ok (w, u) ∧ k w u = .next t := by
  unfold fetch at h
  split at h
  · exact .inl ⟨by assumption, h⟩
  · exact .inr (withRead_next.mp h)

/-- A word that answers next is an instruction that ran, or an undecodable one that trapped. -/
theorem runWord_next {w : Word} {s t : State} (h : runWord w s = .next t) :
    (∃ i, i.space = .cpu ∧ decodeCpu w = .ok i ∧ exec i s = .next t) ∨ raise .ri s = .next t := by
  unfold runWord at h
  split at h
  · rename_i i hi
    exact .inl ⟨i, decodeCpu_space hi, hi, h⟩
  · unfold undecodable at h
    split at h
    · cases h
    · exact .inr h

/-- Fetch, decode and execute, as effects: of the fetch, then of the instruction. -/
theorem fetch_run_effect {s t : State} (h : fetch s runWord = .next t) :
    Effect s t ∨ ∃ pa w u, busRead pa .word s = .ok (w, u) ∧ Effect u t := by
  rcases fetch_next h with ⟨-, h⟩ | ⟨w, u, h1, h2⟩
  · exact .inl (.trapped _ _ _ _ h)
  · refine .inr ⟨_, w, u, h1, ?_⟩
    rcases runWord_next h2 with ⟨i, hs, -, h3⟩ | h3
    · exact exec_effect hs h3
    · exact .trapped _ _ _ _ h3

/-- A step that answers next: nobody holds or has halted the machine, and the parts in their order. -/
theorem step_next {s t : State} (h : step s = .next t) :
    s.halt = none ∧ s.host.held = false ∧
      ∃ u v, fetch s.latch runWord = .next u ∧ dmaSlot (finish u) = .next v ∧ t = lateSlots v := by
  unfold step at h
  split at h
  · cases h
  · rename_i h1
    split at h
    · cases h
    · rename_i h2
      simp only [invocation, processorStep, deviceSlots, andThen_next] at h
      obtain ⟨a, ⟨u, h3, h4⟩, v, h5, h6⟩ := h
      cases h4; cases h6
      exact ⟨by simpa using h1, by simpa using h2, u, v, h3, h5, rfl⟩

/-- The timers' slot: the timers, and I_STAT bits 4 to 6. -/
theorem timersSlot_spec (c d h : Nat) (b : Bool) (s : State) :
    ∃ x y z ts, timersSlot c d h b s = (((s.raiseIrq 4 x).raiseIrq 5 y).raiseIrq 6 z).setTimers ts :=
  ⟨_, _, _, _, rfl⟩

/-- The late slots: vertical blank on the graphics unit, the disc, the timers, up to five bits of I_STAT, and
the host's inputs used up. -/
theorem lateSlots_spec (s : State) :
    ∃ a x y z c ts, s.cdc.keeps c ∧
      lateSlots s =
        (((((((vblank s.host.input.b s).raiseIrq 2 a).setCdc c).raiseIrq 4 x).raiseIrq 5 y).raiseIrq 6
          z).setTimers ts).setHost s.host.consume := by
  obtain ⟨a, c, h, hk⟩ := discAdvance_spec (cpi s.params) (vblank s.host.input.b s)
  obtain ⟨x, y, z, ts, h2⟩ := timersSlot_spec (cpi s.params) s.host.input.d s.host.input.h s.host.input.b
    (((vblank s.host.input.b s).raiseIrq 2 a).setCdc c)
  refine ⟨a, x, y, z, c, ts, hk, ?_⟩
  simp only [lateSlots, h, h2]
  simp [vblank]

/-- The late slots touch the graphics unit, the disc, the timers, I_STAT and the host's inputs. -/
theorem lateSlots_changes (s : State) :
    s.changesOnly [.gpu, .cdc, .timers, .intc, .host] (lateSlots s) := by
  obtain ⟨a, x, y, z, c, ts, -, h⟩ := lateSlots_spec s
  intro p hp
  cases p <;> simp_all [vblank, State.sameOn, State.reg, State.byte]

/-- Of the late slots only the disc's touches the disc. -/
theorem lateSlots_cdc (s : State) :
    (lateSlots s).cdc = (discAdvance (cpi s.params) (vblank s.host.input.b s)).cdc := by
  rw [lateSlots]
  generalize discAdvance (cpi s.params) (vblank s.host.input.b s) = t
  simp [timersSlot]

/-- Steps 5 to 8 touch general registers, pc, posted branch, stage and coprocessor 0. -/
theorem finish_changes (s : State) : s.changesOnly [.gpr, .pc, .pb, .stage, .cop0] (finish s) := by
  have hc : s.changesOnly [.gpr, .pc, .pb, .stage, .cop0] (commitLoad s) := by
    unfold commitLoad
    split
    · exact changesOnly_refl _ _
    · split
      · exact changesOnly_refl _ _
      · exact changesOnly_mono (changesOnly_setGpr _ _ _) (by simp)
  refine changesOnly_trans hc ?_
  show State.changesOnly _ _
    (State.setStage (if (commitLoad s).stage.excepted then commitLoad s else advance (commitLoad s)) .idle)
  generalize commitLoad s = u
  intro p hp
  split <;> (try unfold advance) <;> (try split) <;> cases p <;>
    simp_all [State.sameOn, State.byte]

/-! ## What every step keeps -/

/-- A property that every primitive effect of a step keeps. -/
structure StepKeeps (P : State → Prop) : Prop where
  engine : DmaKeeps P
  latched : ∀ s, P s → P s.latch
  staged : ∀ s v, P s → P (s.setStage v)
  wrote : ∀ s d v, P s → P (s.setReg d v)
  landed : ∀ s d v, P s → P (s.setGpr d v)
  hi : ∀ s v, P s → P (s.setHi v)
  lo : ∀ s v, P s → P (s.setLo v)
  pc : ∀ s v, P s → P (s.setPc v)
  posted : ∀ s d v, P s → P (s.postLoad d v)
  branched : ∀ s v, P s → P (s.postBranch v)
  entered : ∀ e epc bd s, P s → P (enterException e epc bd s)
  cop0 : ∀ s n v c, State.writeCop0 s.cop0 n v = some c → P s → P (s.setCop0 c)
  returned : ∀ s, P s → P (returnFromException s)
  gte : ∀ s g, P s → P (s.setGte g)
  mem : ∀ s a n v, P s → P (s.setMem (Memory.write s.mem a n v))
  irq : ∀ s n on, n < 7 → P s → P (s.raiseIrq n on)
  acked : ∀ s (v : BitVec 11), P s → P (s.setIntc { s.intc with istat := s.intc.istat &&& v })
  masked : ∀ s v, P s → P (s.setIntc { s.intc with imask := v })
  dmaReg : ∀ s off v, P s → P (setDmaEdge (s.dma.writeReg off v) s)
  timers : ∀ s v, P s → P (s.setTimers v)
  cdc : ∀ s c, s.cdc.keeps c → P s → P (s.setCdc c)
  gp1 : ∀ w s t, P s → runGp1 w s = .next t → P t
  blank : ∀ b s, P s → P (vblank b s)
  host : ∀ s h, h.held = s.host.held → h.attached = s.host.attached → h.brk = s.host.brk → P s →
    P (s.setHost h)

namespace StepKeeps

variable {P : State → Prop}

theorem busRead (k : StepKeeps P) {pa v : Word} {n : Width} {s t : State} (hs : P s)
    (h : Machine.busRead pa n s = .ok (v, t)) : P t := by
  rcases busRead_cases h with rfl | ⟨i, o, rfl⟩ | ⟨o, rfl⟩ | rfl
  · exact hs
  · exact k.timers _ _ hs
  · exact k.cdc _ _ (Cdc.keeps_readPort _ _) hs
  · exact k.engine.read _ hs

theorem busWrite (k : StepKeeps P) {pa v : Word} {n : Width} {s t : State} (hs : P s)
    (h : Machine.busWrite pa n v s = .next t) : P t := by
  have hm : P (storeWrite pa n v s) := k.mem _ _ _ _ hs
  rcases busWrite_cases h with rfl | rfl | rfl | rfl | ⟨o, rfl⟩ | ⟨i, o, rfl⟩ | ⟨o, h⟩ | h | h
  · exact hm
  · unfold ttyTap; split
    · exact k.host _ _ rfl rfl rfl hm
    · exact hm
  · exact k.acked _ _ hs
  · exact k.masked _ _ hs
  · exact k.dmaReg _ _ _ hs
  · exact k.timers _ _ hs
  · obtain ⟨c, h1, h2⟩ := discWrite_spec o (v.extractLsb' 0 8) s
    rw [h] at h1; cases h1; exact k.cdc _ _ h2 hs
  · exact k.engine.submit _ _ _ hs h
  · exact k.gp1 _ _ _ hs h

theorem raiseAt (k : StepKeeps P) {e : Exc} {epc : Word} {bd : Bool} {s t : State} (hs : P s)
    (h : Machine.raiseAt e epc bd s = .next t) : P t := by
  cases h; exact k.staged _ _ (k.entered e _ _ _ hs)

theorem effect (k : StepKeeps P) {s t : State} (hs : P s) (h : Effect s t) : P t := by
  cases h with
  | same => exact hs
  | wrote => exact k.wrote _ _ _ hs
  | hi => exact k.hi _ _ hs
  | lo => exact k.lo _ _ hs
  | pair => exact k.lo _ _ (k.hi _ _ hs)
  | trapped _ _ _ _ h => exact k.raiseAt hs h
  | posted => exact k.posted _ _ _ hs
  | loaded _ _ _ _ _ _ h => exact k.posted _ _ _ (k.busRead hs h)
  | stored _ _ _ _ h => exact k.busWrite hs h
  | merged _ _ _ _ _ h h' => exact k.busWrite (k.busRead hs h) h'
  | branched => exact k.branched _ _ hs
  | linked => exact k.branched _ _ (k.wrote _ _ _ hs)
  | cop0 _ _ _ h => exact k.cop0 _ _ _ _ h hs
  | returned => exact k.returned _ hs
  | gte => exact k.gte _ _ hs
  | gteLoaded _ _ _ _ h => exact k.gte _ _ (k.busRead hs h)

theorem fetchRun (k : StepKeeps P) {s t : State} (hs : P s) (h : fetch s runWord = .next t) : P t := by
  rcases fetch_run_effect h with h | ⟨_, _, _, h1, h2⟩
  · exact k.effect hs h
  · exact k.effect (k.busRead hs h1) h2

theorem finish (k : StepKeeps P) {s : State} (hs : P s) : P (Machine.finish s) := by
  have hc : P (commitLoad s) := by
    unfold commitLoad
    split
    · exact hs
    · split
      · exact hs
      · exact k.landed _ _ _ hs
  refine k.staged _ _ ?_
  split
  · exact hc
  · unfold advance; split
    · exact k.entered _ _ _ _ hc
    · exact k.pc _ _ hc

theorem lateSlots (k : StepKeeps P) {s : State} (hs : P s) : P (Machine.lateSlots s) := by
  obtain ⟨a, x, y, z, c, ts, hk, h⟩ := lateSlots_spec s
  rw [h]
  refine k.host _ _ rfl rfl rfl (k.timers _ _ (k.irq _ _ _ (by decide) (k.irq _ _ _ (by decide)
    (k.irq _ _ _ (by decide) (k.cdc _ _ hk (k.irq _ _ _ (by decide) (k.blank _ _ hs)))))))

/-- A step keeps what its primitive effects keep. -/
theorem step (k : StepKeeps P) {s t : State} (hs : P s) (h : Machine.step s = .next t) : P t := by
  obtain ⟨-, -, u, v, h1, h2, rfl⟩ := step_next h
  exact k.lateSlots (k.engine.slot (k.finish (k.fetchRun (k.latched _ hs) h1)) h2)

end StepKeeps

end Sys2Proof.Machine
end

