-- ==== Sys2Proof/Tests/Slice0.lean ====
section
/-!
SUPPORT. The model's own tests. Expected results come from spec/95_test_vectors.md (section named in each
docstring) or were computed by hand from the cited rule; the words of the decode tests are the match value and the
fields of spec/opcode_table.json put together outside Lean. The witnesses at the end show, for each obligation with
hypotheses, a state and operands that meet them.
-/

namespace Sys2Proof.Tests

set_option Elab.async false

open Sys2Proof.Machine

/-! ## Well-formedness -/

theorem test_wf_polygon_refused : Instr.wf (.gp0Polygon true true true false false 0 [1, 2, 3]) = false := by
  decide
theorem test_wf_polygon_long_refused :
    Instr.wf (.gp0Polygon false false false false false 0 [1, 2, 3, 4]) = false := by decide
theorem test_wf_line_refused : Instr.wf (.gp0Line true false false false 0 [1, 2]) = false := by decide
theorem test_wf_rect_refused : Instr.wf (.gp0Rect 0#2 true false false 0 [1, 2]) = false := by decide
theorem test_wf_accepted :
    Instr.wf (.gp0Polygon false false false false false 0 [1, 2, 3]) = true ∧
      Instr.wf (.gp0Line false false false false 0 [1, 2]) = true ∧
      Instr.wf (.gp0Rect 0#2 true false false 0 [1, 2, 3]) = true := by decide

/-! ## Decoding: a word of every row of the table -/

/-- Every pair decodes as it says. -/
def decodes (l : List (Word × Instr)) : Bool := l.all fun p => (decodeCpu p.1).toOption == some p.2

theorem test_decode_alu : decodes
   [(0x00221820#32, .add 3#5 1#5 2#5), (0x00221821#32, .addu 3#5 1#5 2#5),
    (0x00221822#32, .sub 3#5 1#5 2#5), (0x00221823#32, .subu 3#5 1#5 2#5),
    (0x00221824#32, .and 3#5 1#5 2#5), (0x00221825#32, .or 3#5 1#5 2#5),
    (0x00221826#32, .xor 3#5 1#5 2#5), (0x00221827#32, .nor 3#5 1#5 2#5),
    (0x0022182A#32, .slt 3#5 1#5 2#5), (0x0022182B#32, .sltu 3#5 1#5 2#5),
    (0x20228005#32, .addi 2#5 1#5 0x8005#16), (0x24228005#32, .addiu 2#5 1#5 0x8005#16),
    (0x28228005#32, .slti 2#5 1#5 0x8005#16), (0x2C228005#32, .sltiu 2#5 1#5 0x8005#16),
    (0x30228005#32, .andi 2#5 1#5 0x8005#16), (0x34228005#32, .ori 2#5 1#5 0x8005#16),
    (0x38228005#32, .xori 2#5 1#5 0x8005#16), (0x3C028005#32, .lui 2#5 0x8005#16),
    (0x00021900#32, .sll 3#5 2#5 4#5), (0x00021902#32, .srl 3#5 2#5 4#5),
    (0x00021903#32, .sra 3#5 2#5 4#5), (0x00221804#32, .sllv 3#5 2#5 1#5),
    (0x00221806#32, .srlv 3#5 2#5 1#5), (0x00221807#32, .srav 3#5 2#5 1#5)] = true := by decide

theorem test_decode_muldiv : decodes
   [(0x00220018#32, .mult 1#5 2#5), (0x00220019#32, .multu 1#5 2#5), (0x0022001A#32, .div 1#5 2#5),
    (0x0022001B#32, .divu 1#5 2#5), (0x00001810#32, .mfhi 3#5), (0x00001812#32, .mflo 3#5),
    (0x00200011#32, .mthi 1#5), (0x00200013#32, .mtlo 1#5)] = true := by decide

theorem test_decode_memory : decodes
   [(0x80228005#32, .lb 2#5 1#5 0x8005#16), (0x90228005#32, .lbu 2#5 1#5 0x8005#16),
    (0x84228005#32, .lh 2#5 1#5 0x8005#16), (0x94228005#32, .lhu 2#5 1#5 0x8005#16),
    (0x8C228005#32, .lw 2#5 1#5 0x8005#16), (0x88228005#32, .lwl 2#5 1#5 0x8005#16),
    (0x98228005#32, .lwr 2#5 1#5 0x8005#16), (0xA0228005#32, .sb 2#5 1#5 0x8005#16),
    (0xA4228005#32, .sh 2#5 1#5 0x8005#16), (0xAC228005#32, .sw 2#5 1#5 0x8005#16),
    (0xA8228005#32, .swl 2#5 1#5 0x8005#16), (0xB8228005#32, .swr 2#5 1#5 0x8005#16)] = true := by decide

theorem test_decode_branch : decodes
   [(0x10228005#32, .beq 1#5 2#5 0x8005#16), (0x14228005#32, .bne 1#5 2#5 0x8005#16),
    (0x18208005#32, .blez 1#5 0x8005#16), (0x1C208005#32, .bgtz 1#5 0x8005#16),
    (0x04208005#32, .bltz 1#5 0x8005#16), (0x04218005#32, .bgez 1#5 0x8005#16),
    (0x04308005#32, .bltzal 1#5 0x8005#16), (0x04318005#32, .bgezal 1#5 0x8005#16),
    (0x0A345678#32, .j 0x2345678#26), (0x0E345678#32, .jal 0x2345678#26), (0x00200008#32, .jr 1#5),
    (0x00201809#32, .jalr 3#5 1#5)] = true := by decide

theorem test_decode_system : decodes
   [(0x02AF378C#32, .syscall 0xABCDE#20), (0x02AF378D#32, .brk 0xABCDE#20),
    (0x40021800#32, .mfc0 2#5 3#5), (0x40821800#32, .mtc0 2#5 3#5), (0x42000010#32, .rfe),
    (0x48021800#32, .mfc2 2#5 3#5), (0x48421800#32, .cfc2 2#5 3#5), (0x48821800#32, .mtc2 2#5 3#5),
    (0x48C21800#32, .ctc2 2#5 3#5), (0xC8228005#32, .lwc2 2#5 1#5 0x8005#16),
    (0xE8228005#32, .swc2 2#5 1#5 0x8005#16)] = true := by decide

/-- The fields of the coprocessor-2 words below, bit by bit: 0x15, sf, mx 2, v 1, cv 3, 1, lm, 0xA. -/
def a : GteArgs := ⟨0x15#5, true, 2#2, 1#2, 3#2, 1#2, true, 0xA#4⟩

theorem test_decode_gte : decodes
   [(0x4B5CEE81#32, .gteRtps a), (0x4B5CEE86#32, .gteNclip a), (0x4B5CEE8C#32, .gteOp a),
    (0x4B5CEE90#32, .gteDpcs a), (0x4B5CEE91#32, .gteIntpl a), (0x4B5CEE92#32, .gteMvmva a),
    (0x4B5CEE93#32, .gteNcds a), (0x4B5CEE94#32, .gteCdp a), (0x4B5CEE96#32, .gteNcdt a),
    (0x4B5CEE9B#32, .gteNccs a), (0x4B5CEE9C#32, .gteCc a), (0x4B5CEE9E#32, .gteNcs a),
    (0x4B5CEEA0#32, .gteNct a), (0x4B5CEEA8#32, .gteSqr a), (0x4B5CEEA9#32, .gteDcpl a),
    (0x4B5CEEAA#32, .gteDpct a), (0x4B5CEEAD#32, .gteAvsz3 a), (0x4B5CEEAE#32, .gteAvsz4 a),
    (0x4B5CEEB0#32, .gteRtpt a), (0x4B5CEEBD#32, .gteGpf a), (0x4B5CEEBE#32, .gteGpl a),
    (0x4B5CEEBF#32, .gteNcct a)] = true := by decide

/-- The named fields of section 2.8's command words. -/
theorem test_decode_gte_fields : decodes
   [(0x4A180001#32, .gteRtps ⟨1, true, 0, 0, 0, 0, false, 0⟩),
    (0x4B400006#32, .gteNclip ⟨0x14, false, 0, 0, 0, 0, false, 0⟩),
    (0x4A4DA412#32, .gteMvmva ⟨4, true, 2, 3, 1, 0, true, 0⟩),
    (0x4A00003F#32, .gteNcct ⟨0, false, 0, 0, 0, 0, false, 0⟩)] = true := by decide

/-- The words of section 2.8 that do not decode. -/
theorem test_decode_rejects :
    [0x0000003F#32, 0x00200000#32, 0x03E00808#32, 0x04020000#32, 0x44000000#32, 0xC4000000#32, 0x42000001#32,
      0x4A000000#32, 0x4A000002#32].all (fun w => (decodeCpu w).toOption == none) = true := by decide

theorem test_decode_gp1 :
   [(0x00123456#32, .gp1Reset 0x123456#24), (0x01123456#32, .gp1ResetBuffer 0x123456#24),
    (0x02123456#32, .gp1AckIrq 0x123456#24), (0x03123456#32, .gp1DisplayEnable 0x123456#24),
    (0x04123456#32, .gp1DmaDirection 0x123456#24), (0x05123456#32, .gp1DisplayStart 0x123456#24),
    (0x06123456#32, .gp1HRange 0x123456#24), (0x07123456#32, .gp1VRange 0x123456#24),
    (0x08123456#32, .gp1DisplayMode 0x123456#24), (0x10123456#32, .gp1GetInfo 0x123456#24)].all
    (fun p => (decodeGp1 p.1).toOption == some p.2) = true := by decide

theorem test_decode_disc :
   [(0x01#8, .cdcGetstat), (0x02#8, .cdcSetloc), (0x03#8, .cdcPlay), (0x06#8, .cdcReadN),
    (0x07#8, .cdcMotorOn), (0x08#8, .cdcStop), (0x09#8, .cdcPause), (0x0A#8, .cdcInit),
    (0x0B#8, .cdcMute), (0x0C#8, .cdcDemute), (0x0D#8, .cdcSetfilter), (0x0E#8, .cdcSetmode),
    (0x0F#8, .cdcGetparam), (0x10#8, .cdcGetlocL), (0x11#8, .cdcGetlocP), (0x13#8, .cdcGetTN),
    (0x14#8, .cdcGetTD), (0x15#8, .cdcSeekL), (0x16#8, .cdcSeekP), (0x19#8, .cdcTest),
    (0x1A#8, .cdcGetID), (0x1B#8, .cdcReadS), (0x1E#8, .cdcReadTOC)].all
    (fun p => (decodeDisc p.1).toOption == some p.2) = true := by decide

/-- One command of every GP0 row (47_gpu_commands.md R440), one more word standing behind it. -/
theorem test_decode_gp0 :
    ([([0x00123456#32], .gp0Nop 0x123456#24), ([0x01123456#32], .gp0ClearCache 0x123456#24),
      ([0x02123456#32, 1, 2], .gp0Fill 0x123456#24 1 2), ([0x1F123456#32], .gp0Irq 0x123456#24),
      ([0x26123456#32, 1, 2, 3, 4, 5, 6],
        .gp0Polygon false false true true false 0x123456#24 [1, 2, 3, 4, 5, 6]),
      ([0x38123456#32, 1, 2, 3, 4, 5, 6, 7],
        .gp0Polygon true true false false false 0x123456#24 [1, 2, 3, 4, 5, 6, 7]),
      ([0x52123456#32, 1, 2, 3], .gp0Line true false true false 0x123456#24 [1, 2, 3]),
      ([0x65123456#32, 1, 2, 3], .gp0Rect 0#2 true false true 0x123456#24 [1, 2, 3]),
      ([0x7A123456#32, 1], .gp0Rect 3#2 false true false 0x123456#24 [1]),
      ([0x80123456#32, 1, 2, 3], .gp0CopyVram 0x123456#24 1 2 3),
      ([0xA0123456#32, 1, 2], .gp0ToVram 0x123456#24 1 2),
      ([0xC0123456#32, 1, 2], .gp0FromVram 0x123456#24 1 2),
      ([0xE1123456#32], .gp0DrawMode 0x123456#24), ([0xE2123456#32], .gp0TexWindow 0x123456#24),
      ([0xE3123456#32], .gp0AreaTl 0x123456#24), ([0xE4123456#32], .gp0AreaBr 0x123456#24),
      ([0xE5123456#32], .gp0Offset 0x123456#24), ([0xE6123456#32], .gp0MaskBits 0x123456#24)] :
      List (List Word × Instr)).all
      (fun p => (decodeGp0 (p.1 ++ [9])).toOption == some (p.2, [9])) = true := by decide

/-- The command lengths of section 2.10, and bytes that are no command. -/
theorem test_gp0_words :
    ([(0x20, 4), (0x2C, 9), (0x30, 6), (0x3C, 12), (0x3E, 12), (0x40, 3), (0x50, 4), (0x60, 3), (0x64, 4),
      (0x68, 2), (0x7C, 3), (0x02, 3), (0x80, 4), (0xA0, 3), (0xC0, 3), (0x1F, 1), (0xE6, 1)] :
      List (Nat × Nat)).all (fun p => gp0Words (BitVec.ofNat 8 p.1) == some p.2) = true ∧
    ([0x03, 0x48, 0x81, 0xE0, 0xE7, 0xFF] : List Nat).all
      (fun c => gp0Words (BitVec.ofNat 8 c) == none) = true := by decide

/-! ## A small start state -/

/-- The start of section 2's processor vectors. -/
def start : State :=
  { State.reset with
    pc := 0x80010000#32
    cop0 := { Cop0.reset with sr := 0 }
    params :=
      { Config.params with cpiPred := 0, ackPred := 9, donePred := 9, seekPred := 19, readPred := 29 }
    host := { HostSide.reset with ticks := [⟨0, 0, false⟩] } }

/-- The same with some registers written. -/
def regs (l : List (RegNum × Word)) : State := l.foldl (fun s p => s.setGpr p.1 p.2) start

/-- What an outcome's next state shows. -/
def seen {α : Type} (o : Out) (f : State → α) : Option α :=
  match o with
  | .next t => some (f t)
  | _ => none

/-- The word decoded and executed. -/
def ran {α : Type} (w : Word) (s : State) (f : State → α) : Option α := seen (runWord w s) f

/-- The word placed at the pc, and one whole step. -/
def stepped {α : Type} (w : Word) (s : State) (f : State → α) : Option α := seen (step (s.placeWord w)) f

/-- The outcome is a next state. -/
def goes (o : Out) : Bool := (seen o fun _ => ()).isSome

/-! ## Arithmetic, logic, shifts (section 2.1) -/

/-- With `x1`, `x2` as listed and `x3` = 0x33, the word leaves the value in the register. -/
def results (l : List (Word × Word × Word × RegNum × Word)) : Bool :=
  l.all fun p =>
    ran p.1 (regs [(1#5, p.2.1), (2#5, p.2.2.1), (3#5, 0x33#32)]) (·.reg p.2.2.2.1) == some p.2.2.2.2

/-- The word enters the overflow exception and writes nothing. -/
def overflows (l : List (Word × Word × Word)) : Bool :=
  l.all fun p =>
    ran p.1 (regs [(1#5, p.2.1), (2#5, p.2.2), (3#5, 0x33#32)])
      (fun t => (t.pc, t.cop0.cause, t.cop0.epc, t.reg 3#5)) ==
      some (0x80000080#32, 0x30#32, 0x80010000#32, 0x33#32)

theorem test_results_1 : results
   [(0x00221820#32, 0x5#32, 0x7#32, 3#5, 0xC#32),
    (0x00221820#32, 0x7FFFFFFF#32, 0x80000000#32, 3#5, 0xFFFFFFFF#32),
    (0x00221821#32, 0x7FFFFFFF#32, 0x1#32, 3#5, 0x80000000#32),
    (0x00221821#32, 0xFFFFFFFF#32, 0x1#32, 3#5, 0x0#32),
    (0x00210821#32, 0x80000001#32, 0x0#32, 1#5, 0x2#32),
    (0x00221822#32, 0x5#32, 0x7#32, 3#5, 0xFFFFFFFE#32),
    (0x00221822#32, 0xFFFFFFFF#32, 0x80000000#32, 3#5, 0x7FFFFFFF#32),
    (0x00221823#32, 0x80000000#32, 0x1#32, 3#5, 0x7FFFFFFF#32),
    (0x00221823#32, 0x0#32, 0x1#32, 3#5, 0xFFFFFFFF#32),
    (0x00221824#32, 0xFF00FF00#32, 0xFF00FF0#32, 3#5, 0xF000F00#32),
    (0x00221825#32, 0xFF00FF00#32, 0xFF00FF0#32, 3#5, 0xFFF0FFF0#32),
    (0x00221826#32, 0xFF00FF00#32, 0xFF00FF0#32, 3#5, 0xF0F0F0F0#32),
    (0x00221827#32, 0xFF00FF00#32, 0xFF00FF0#32, 3#5, 0xF000F#32),
    (0x00001827#32, 0x0#32, 0x0#32, 3#5, 0xFFFFFFFF#32),
    (0x0022182A#32, 0xFFFFFFFF#32, 0x1#32, 3#5, 0x1#32),
    (0x0022182A#32, 0x1#32, 0xFFFFFFFF#32, 3#5, 0x0#32),
    (0x0022182A#32, 0x80000000#32, 0x7FFFFFFF#32, 3#5, 0x1#32),
    (0x0022182A#32, 0x7#32, 0x7#32, 3#5, 0x0#32), (0x0022182B#32, 0xFFFFFFFF#32, 0x1#32, 3#5, 0x0#32)] = true := by decide +kernel

theorem test_results_2 : results
   [(0x0022182B#32, 0x1#32, 0xFFFFFFFF#32, 3#5, 0x1#32), (0x0002182B#32, 0x0#32, 0x0#32, 3#5, 0x0#32),
    (0x2023FFFF#32, 0x0#32, 0x0#32, 3#5, 0xFFFFFFFF#32),
    (0x20238000#32, 0x8000#32, 0x0#32, 3#5, 0x0#32),
    (0x2423FFFF#32, 0x80000000#32, 0x0#32, 3#5, 0x7FFFFFFF#32),
    (0x24237FFF#32, 0x7FFFFFFF#32, 0x0#32, 3#5, 0x80007FFE#32),
    (0x24038000#32, 0x0#32, 0x0#32, 3#5, 0xFFFF8000#32),
    (0x2823FFFF#32, 0xFFFFFFFE#32, 0x0#32, 3#5, 0x1#32), (0x2823FFFF#32, 0x0#32, 0x0#32, 3#5, 0x0#32),
    (0x28237FFF#32, 0x80000000#32, 0x0#32, 3#5, 0x1#32),
    (0x2C23FFFF#32, 0xFFFFFFFE#32, 0x0#32, 3#5, 0x1#32),
    (0x2C23FFFF#32, 0xFFFFFFFF#32, 0x0#32, 3#5, 0x0#32), (0x2C230001#32, 0x0#32, 0x0#32, 3#5, 0x1#32),
    (0x2C238000#32, 0xFFFF#32, 0x0#32, 3#5, 0x1#32),
    (0x3023FFFF#32, 0x12345678#32, 0x0#32, 3#5, 0x5678#32),
    (0x30238000#32, 0xFFFFFFFF#32, 0x0#32, 3#5, 0x8000#32),
    (0x34238000#32, 0x12340000#32, 0x0#32, 3#5, 0x12348000#32),
    (0x3823FFFF#32, 0xFFFFFFFF#32, 0x0#32, 3#5, 0xFFFF0000#32),
    (0x3C038000#32, 0x0#32, 0x0#32, 3#5, 0x80000000#32)] = true := by decide +kernel

theorem test_results_3 : results
   [(0x3C03FFFF#32, 0x0#32, 0x0#32, 3#5, 0xFFFF0000#32),
    (0x00011800#32, 0x80000001#32, 0x0#32, 3#5, 0x80000001#32),
    (0x00011FC0#32, 0x80000001#32, 0x0#32, 3#5, 0x80000000#32),
    (0x00011900#32, 0xF0000001#32, 0x0#32, 3#5, 0x10#32),
    (0x00011FC2#32, 0x80000001#32, 0x0#32, 3#5, 0x1#32),
    (0x00011802#32, 0x80000001#32, 0x0#32, 3#5, 0x80000001#32),
    (0x00011902#32, 0x80000001#32, 0x0#32, 3#5, 0x8000000#32),
    (0x00011FC3#32, 0x80000001#32, 0x0#32, 3#5, 0xFFFFFFFF#32),
    (0x00011903#32, 0x80000001#32, 0x0#32, 3#5, 0xF8000000#32),
    (0x00011903#32, 0x7FFFFFF1#32, 0x0#32, 3#5, 0x7FFFFFF#32),
    (0x00411804#32, 0x1#32, 0x20#32, 3#5, 0x1#32), (0x00411804#32, 0x1#32, 0x3F#32, 3#5, 0x80000000#32),
    (0x00411804#32, 0x1#32, 0xFFFFFFE4#32, 3#5, 0x10#32),
    (0x00411806#32, 0x80000000#32, 0x21#32, 3#5, 0x40000000#32),
    (0x00411806#32, 0x80000000#32, 0x1F#32, 3#5, 0x1#32),
    (0x00411807#32, 0x80000000#32, 0x21#32, 3#5, 0xC0000000#32),
    (0x00411807#32, 0x80000000#32, 0x3F#32, 3#5, 0xFFFFFFFF#32),
    (0x00411807#32, 0x40000000#32, 0x1E#32, 3#5, 0x1#32)] = true := by decide +kernel

theorem test_overflows : overflows
   [(0x00221820#32, 0x7FFFFFFF#32, 0x1#32), (0x00221820#32, 0x80000000#32, 0xFFFFFFFF#32),
    (0x00220020#32, 0x7FFFFFFF#32, 0x1#32), (0x00221822#32, 0x80000000#32, 0x1#32),
    (0x00221822#32, 0x0#32, 0x80000000#32), (0x2023FFFF#32, 0x80000000#32, 0x0#32),
    (0x20237FFF#32, 0x7FFFFFFF#32, 0x0#32)] = true := by decide +kernel

/-! ## Multiply and divide (section 2.2) -/

theorem test_muldiv :
   [(0x00220018#32, 0xFFFFFFF9#32, 0x2#32, 0xFFFFFFFF#32, 0xFFFFFFF2#32),
    (0x00220018#32, 0x80000000#32, 0x80000000#32, 0x40000000#32, 0x0#32),
    (0x00220018#32, 0x80000000#32, 0x7FFFFFFF#32, 0xC0000000#32, 0x80000000#32),
    (0x00220018#32, 0xFFFFFFFF#32, 0xFFFFFFFF#32, 0x0#32, 0x1#32),
    (0x00220018#32, 0x7FFFFFFF#32, 0x7FFFFFFF#32, 0x3FFFFFFF#32, 0x1#32),
    (0x00200018#32, 0x0#32, 0x0#32, 0x0#32, 0x0#32),
    (0x00220019#32, 0xFFFFFFFF#32, 0xFFFFFFFF#32, 0xFFFFFFFE#32, 0x1#32),
    (0x00220019#32, 0x80000000#32, 0x80000000#32, 0x40000000#32, 0x0#32),
    (0x00220019#32, 0xFFFFFFF9#32, 0x2#32, 0x1#32, 0xFFFFFFF2#32),
    (0x0022001A#32, 0x7#32, 0x2#32, 0x1#32, 0x3#32),
    (0x0022001A#32, 0xFFFFFFF9#32, 0x2#32, 0xFFFFFFFF#32, 0xFFFFFFFD#32),
    (0x0022001A#32, 0x7#32, 0xFFFFFFFE#32, 0x1#32, 0xFFFFFFFD#32),
    (0x0022001A#32, 0xFFFFFFF9#32, 0xFFFFFFFE#32, 0xFFFFFFFF#32, 0x3#32),
    (0x0022001A#32, 0x3#32, 0x7#32, 0x3#32, 0x0#32),
    (0x0022001A#32, 0x5#32, 0x0#32, 0x5#32, 0xFFFFFFFF#32),
    (0x0022001A#32, 0xFFFFFFFB#32, 0x0#32, 0xFFFFFFFB#32, 0x1#32),
    (0x0022001A#32, 0x0#32, 0x0#32, 0x0#32, 0xFFFFFFFF#32),
    (0x0022001A#32, 0x80000000#32, 0xFFFFFFFF#32, 0x0#32, 0x80000000#32),
    (0x0022001A#32, 0x80000000#32, 0x1#32, 0x0#32, 0x80000000#32),
    (0x0022001B#32, 0xFFFFFFF9#32, 0x2#32, 0x1#32, 0x7FFFFFFC#32),
    (0x0022001B#32, 0x7#32, 0x0#32, 0x7#32, 0xFFFFFFFF#32),
    (0x0022001B#32, 0x0#32, 0x0#32, 0x0#32, 0xFFFFFFFF#32),
    (0x0022001B#32, 0x80000000#32, 0xFFFFFFFF#32, 0x80000000#32, 0x0#32)].all (fun p =>
      ran p.1 (regs [(1#5, p.2.1), (2#5, p.2.2.1)]) (fun t => (t.hi, t.lo)) == some p.2.2.2) = true := by
  decide +kernel

theorem test_pair_moves :
    ran 0x00200011#32 (regs [(1#5, 7#32)]) (fun t => (t.hi, t.lo)) = some (7#32, 0#32) ∧
      ran 0x00200013#32 (regs [(1#5, 7#32)]) (fun t => (t.hi, t.lo)) = some (0#32, 7#32) ∧
      ran 0x00001810#32 ((start.setHi 5#32).setLo 6#32) (·.reg 3#5) = some 5#32 ∧
      ran 0x00001812#32 ((start.setHi 5#32).setLo 6#32) (·.reg 3#5) = some 6#32 := by decide +kernel

/-! ## Loads and stores (section 2.3) -/

/-- The memory of section 2.3 with `x1` and `x2`. -/
def held (x1 x2 : Word) : State :=
  (regs [(1#5, x1), (2#5, x2)]).setMem
    (Memory.writeBytes [] 0x100 [0x80, 0x7F, 0xFE, 0x01, 0x11, 0x22, 0x33, 0x44])

/-- The eight bytes. -/
def eight (s : State) : List Byte := (List.range 8).map fun k => s.byte (0x100 + k)

/-- The value is posted and `x2` is as before. -/
theorem test_loads :
   [(0x80220000#32, 0x100#32, 0xFFFFFF80#32), (0x80220001#32, 0x100#32, 0x7F#32),
    (0x8022FFFF#32, 0x103#32, 0xFFFFFFFE#32), (0x90220000#32, 0x100#32, 0x80#32),
    (0x90220002#32, 0x100#32, 0xFE#32), (0x84220000#32, 0x100#32, 0x7F80#32),
    (0x84220002#32, 0x100#32, 0x1FE#32), (0x94220000#32, 0x100#32, 0x7F80#32),
    (0x94220002#32, 0x100#32, 0x1FE#32), (0x8C220000#32, 0x100#32, 0x1FE7F80#32),
    (0x8C220004#32, 0x80000100#32, 0x44332211#32), (0x8C220004#32, 0xA0000100#32, 0x44332211#32),
    (0x8C228000#32, 0x8100#32, 0x1FE7F80#32), (0x88220000#32, 0x100#32, 0x80AAAAAA#32),
    (0x88220001#32, 0x100#32, 0x7F80AAAA#32), (0x88220002#32, 0x100#32, 0xFE7F80AA#32),
    (0x88220003#32, 0x100#32, 0x1FE7F80#32), (0x98220000#32, 0x100#32, 0x1FE7F80#32),
    (0x98220001#32, 0x100#32, 0xAA01FE7F#32), (0x98220002#32, 0x100#32, 0xAAAA01FE#32),
    (0x98220003#32, 0x100#32, 0xAAAAAA01#32)].all (fun p =>
      ran p.1 (held p.2.1 0xAAAAAAAA#32) (fun t => (t.pl, t.reg 2#5)) ==
        some (some (2#5, p.2.2), 0xAAAAAAAA#32)) = true := by decide +kernel

theorem test_stores :
    ([(0xA0220000#32, [0x78, 0x7F, 0xFE, 0x01, 0x11, 0x22, 0x33, 0x44]),
    (0xA0220003#32, [0x80, 0x7F, 0xFE, 0x78, 0x11, 0x22, 0x33, 0x44]),
    (0xA4220002#32, [0x80, 0x7F, 0x78, 0x56, 0x11, 0x22, 0x33, 0x44]),
    (0xAC220004#32, [0x80, 0x7F, 0xFE, 0x01, 0x78, 0x56, 0x34, 0x12]),
    (0xA8220000#32, [0x12, 0x7F, 0xFE, 0x01, 0x11, 0x22, 0x33, 0x44]),
    (0xA8220001#32, [0x34, 0x12, 0xFE, 0x01, 0x11, 0x22, 0x33, 0x44]),
    (0xA8220002#32, [0x56, 0x34, 0x12, 0x01, 0x11, 0x22, 0x33, 0x44]),
    (0xA8220003#32, [0x78, 0x56, 0x34, 0x12, 0x11, 0x22, 0x33, 0x44]),
    (0xB8220000#32, [0x78, 0x56, 0x34, 0x12, 0x11, 0x22, 0x33, 0x44]),
    (0xB8220001#32, [0x80, 0x78, 0x56, 0x34, 0x11, 0x22, 0x33, 0x44]),
    (0xB8220002#32, [0x80, 0x7F, 0x78, 0x56, 0x11, 0x22, 0x33, 0x44]),
    (0xB8220003#32, [0x80, 0x7F, 0xFE, 0x78, 0x11, 0x22, 0x33, 0x44])] : List (Word × List Byte)).all (fun p =>
      ran p.1 (held 0x100#32 0x12345678#32) eight == some p.2) = true := by decide +kernel

/-- Code, BadVaddr, EPC, vector, nothing posted, memory as before. -/
theorem test_misaligned :
   [(0x84220001#32, 0x10#32, 0x101#32), (0x94220003#32, 0x10#32, 0x103#32),
    (0x8C220002#32, 0x10#32, 0x102#32), (0xA4220001#32, 0x14#32, 0x101#32),
    (0xAC220001#32, 0x14#32, 0x101#32)].all (fun p =>
      ran p.1 (held 0x100#32 0x12345678#32)
        (fun t => (t.cop0.cause, t.cop0.badVaddr, t.cop0.epc, t.pc, t.pl, eight t)) ==
        some (p.2.1, p.2.2, 0x80010000#32, 0x80000080#32, none, eight (held 0 0))) = true := by
  decide +kernel

/-- A store with the cache isolated is dropped; alignment is tested before. -/
theorem test_isolated_stores :
    let s := (held 0x100#32 0x12345678#32).setCop0 { Cop0.reset with sr := 0x10000#32 }
    ran 0xAC220000#32 s (fun t => (eight t, t.pc)) = some (eight s, 0x80010000#32) ∧
      ran 0xAC220002#32 s (·.cop0.badVaddr) = some 0x102#32 := by decide +kernel

/-- LWC2 and SWC2 (44_system_cop.md R292, R293): register 6 is RGBC. -/
theorem test_memory_cop2 :
    ran 0xC8260000#32 (held 0x100#32 0) (fun t => (t.gte.rgbc, t.pl)) = some (0x01FE7F80#32, none) ∧
      ran 0xE8260004#32 ((held 0x100#32 0).setGte { Gte.reset with rgbc := 0x12345678#32 }) eight =
        some [0x80, 0x7F, 0xFE, 0x01, 0x78, 0x56, 0x34, 0x12] := by decide +kernel

/-! ## Load delay (section 2.4) -/

/-- S4, second step: LWR over the value LWL has posted (42_loadstore.md R232). -/
theorem test_unaligned_forwarding :
    ran 0x98220001#32 { held 0x100#32 0xAAAAAAAA#32 with pl := some (2#5, 0x11AAAAAA#32) }.latch (·.pl) =
      some (some (2#5, 0x1101FE7F#32)) := by decide +kernel

/-- S1 to S3, second step: the register the load has posted, under both values of LOAD_COLLISION. -/
theorem test_load_collision :
    let s : State := { held 0x100#32 0xAAAAAAAA#32 with pl := some (2#5, 0x01FE7F80#32) }
    let s' : State := { s with params := { s.params with collision := .laterWriteWins } }
    stepped 0x00401821#32 s (fun t => (t.reg 3#5, t.reg 2#5)) = some (0xAAAAAAAA#32, 0x01FE7F80#32) ∧
      stepped 0x24020005#32 s (·.reg 2#5) = some 0x01FE7F80#32 ∧
      stepped 0x24020005#32 s' (·.reg 2#5) = some 5#32 ∧
      stepped 0x8C220004#32 s (fun t => (t.reg 2#5, t.pl)) =
        some (0x01FE7F80#32, some (2#5, 0x44332211#32)) ∧
      stepped 0x8C220004#32 s' (fun t => (t.reg 2#5, t.pl)) =
        some (0xAAAAAAAA#32, some (2#5, 0x44332211#32)) := by decide +kernel

/-! ## Branches and jumps (section 2.5) -/

/-- The posted target and `x31`. -/
def branches (l : List (Word × Word × Word × Option Word × Word)) : Bool :=
  l.all fun p =>
    ran p.1 (regs [(1#5, p.2.1), (2#5, p.2.2.1)]) (fun t => (t.pb, t.reg 31#5)) == some p.2.2.2

theorem test_branches : branches
   [(0x10220003#32, 0x5#32, 0x5#32, some 0x80010010#32, 0#32),
    (0x10220003#32, 0x5#32, 0x6#32, none, 0#32),
    (0x1000FFFF#32, 0x0#32, 0x0#32, some 0x80010000#32, 0#32),
    (0x14220003#32, 0x5#32, 0x6#32, some 0x80010010#32, 0#32),
    (0x14220003#32, 0x5#32, 0x5#32, none, 0#32),
    (0x18200003#32, 0x0#32, 0x0#32, some 0x80010010#32, 0#32),
    (0x18200003#32, 0x80000000#32, 0x0#32, some 0x80010010#32, 0#32),
    (0x18200003#32, 0x1#32, 0x0#32, none, 0#32),
    (0x1C200003#32, 0x1#32, 0x0#32, some 0x80010010#32, 0#32),
    (0x1C200003#32, 0x0#32, 0x0#32, none, 0#32), (0x1C200003#32, 0xFFFFFFFF#32, 0x0#32, none, 0#32),
    (0x04200003#32, 0xFFFFFFFF#32, 0x0#32, some 0x80010010#32, 0#32),
    (0x04200003#32, 0x0#32, 0x0#32, none, 0#32),
    (0x04210003#32, 0x0#32, 0x0#32, some 0x80010010#32, 0#32),
    (0x04210003#32, 0x80000000#32, 0x0#32, none, 0#32),
    (0x04300003#32, 0xFFFFFFFF#32, 0x0#32, some 0x80010010#32, 0x80010008#32),
    (0x04300003#32, 0x0#32, 0x0#32, none, 0x80010008#32),
    (0x04310003#32, 0x0#32, 0x0#32, some 0x80010010#32, 0x80010008#32),
    (0x04310003#32, 0xFFFFFFFF#32, 0x0#32, none, 0x80010008#32),
    (0x080048D0#32, 0x0#32, 0x0#32, some 0x80012340#32, 0#32),
    (0x0C0048D0#32, 0x0#32, 0x0#32, some 0x80012340#32, 0x80010008#32),
    (0x00200008#32, 0x80012340#32, 0x0#32, some 0x80012340#32, 0#32),
    (0x0020F809#32, 0x80012340#32, 0x0#32, some 0x80012340#32, 0x80010008#32),
    (0x10007FFF#32, 0x0#32, 0x0#32, some 0x80030000#32, 0#32),
    (0x10008000#32, 0x0#32, 0x0#32, some 0x7FFF0004#32, 0#32),
    (0x10000000#32, 0x0#32, 0x0#32, some 0x80010004#32, 0#32),
    (0x0BFFFFFF#32, 0x0#32, 0x0#32, some 0x8FFFFFFC#32, 0#32)] = true := by decide +kernel

/-- Source and link in one register: the old value decides, and is the target. -/
theorem test_link_over_source :
    ran 0x07F10003#32 (regs [(31#5, 0xFFFFFFFF#32)]) (fun t => (t.pb, t.reg 31#5)) =
        some (none, 0x80010008#32) ∧
      ran 0x00200809#32 (regs [(1#5, 0x80012340#32)]) (fun t => (t.pb, t.reg 1#5)) =
        some (some 0x80012340#32, 0x80010008#32) := by decide +kernel

/-- The slot runs, then the target is fetched; a branch in a slot posts its own target. -/
theorem test_delay_slot :
    stepped 0x10220003#32 (regs [(1#5, 5#32), (2#5, 5#32)]) (fun t => (t.pc, t.pb)) =
        some (0x80010004#32, some 0x80010010#32) ∧
      stepped 0x00000000#32 { start with pb := some 0x80010010#32 } (fun t => (t.pc, t.pb)) =
        some (0x80010010#32, none) ∧
      stepped 0x10000005#32 { start with pc := 0x80010004#32, pb := some 0x80010010#32 }
        (fun t => (t.pc, t.pb)) = some (0x80010010#32, some 0x8001001C#32) := by decide +kernel

/-- The third step of `jr` to a misaligned address: the fetch traps, EPC the address and BD = 0 also where the slot
of the `jr` held a taken branch (R41, R264, R602). -/
theorem test_misaligned_fetch :
    [none, some 0x80010010#32].all (fun pb =>
      seen (step { start with pc := 0x80012342#32, pb := pb })
        (fun t => (t.pc, t.pb, t.cop0.cause, t.cop0.epc, t.cop0.badVaddr)) ==
        some (0x80000080#32, none, 0x10#32, 0x80012342#32, 0x80012342#32)) = true := by decide +kernel

/-! ## Traps, coprocessor 0, RFE (section 2.6) -/

/-- SR and CAUSE as listed. -/
def mode (sr cause : Word) : State := start.setCop0 { Cop0.reset with sr := sr, cause := cause }

theorem test_traps :
    ([(0x0000000C#32, 0x320#32), (0x0000000D#32, 0x324#32), (0x0000004C#32, 0x320#32),
      (0x03FFFFCD#32, 0x324#32)] : List (Word × Word)).all (fun p =>
      stepped p.1 (mode 0x40F#32 0x300#32)
        (fun t => (t.pc, t.cop0.sr, t.cop0.cause, t.cop0.epc)) ==
        some (0x80000080#32, 0x43C#32, p.2, 0x80010000#32)) = true := by decide +kernel

/-- `syscall` in a delay slot, with the ROM vector. -/
theorem test_trap_in_slot :
    stepped 0x0000000C#32 { mode 0x400001#32 0 with pc := 0x80010004#32, pb := some 0x12345678#32 }
      (fun t => (t.pc, t.cop0.sr, t.cop0.cause, t.cop0.epc, t.pb)) =
      some (0xBFC00180#32, 0x400004#32, 0x80000020#32, 0x80010000#32, none) := by decide +kernel

theorem test_cop0_moves :
    ran 0x40826000#32 (regs [(2#5, 0xFFFFFFFF#32)]) (·.cop0.sr) = some 0xFFFFFFFF#32 ∧
      ran 0x40826800#32 (regs [(2#5, 0xFFFFFFFF#32)]) (·.readCause) = some 0x300#32 ∧
      ran 0x40826000#32 (regs [(2#5, 0xFFFFFFFF#32)]) (·.cop0.cause) = some 0#32 ∧
      ran 0x40026800#32 (start.setIntc ⟨4, 4⟩) (·.pl) = some (some (2#5, 0x400#32)) ∧
      ran 0x40027800#32 start (·.pl) = some (some (2#5, 2#32)) := by decide +kernel

theorem test_rfe :
    ([(0x3F#32, 0x3F#32), (0x15#32, 0x15#32), (0x2A#32, 0x2A#32), (0xC#32, 3#32), (0x400404#32, 0x400401#32)] :
      List (Word × Word)).all (fun p => ran 0x42000010#32 (mode p.1 0) (·.cop0.sr) == some p.2) = true ∧
    ([(0x3F#32, 0x3C#32), (0x15#32, 0x14#32), (1#32, 4#32), (3#32, 0xC#32), (0x400401#32, 0x400404#32)] :
      List (Word × Word)).all (fun p => pushSr p.1 == p.2) = true := by decide +kernel

/-! ## Interrupts (section 2.7) -/

/-- SR, I_STAT and I_MASK as listed. -/
def irqs (sr : Word) (st mask : BitVec 11) : State := (mode sr 0).setIntc ⟨st, mask⟩

/-- A, B and C: after an instruction, after a branch, after a slot. -/
theorem test_interrupts :
    stepped 0x24420001#32 (irqs 0x401#32 4 4) (fun t => (t.reg 2#5, t.pc, t.cop0.sr, t.readCause, t.cop0.epc)) =
        some (1#32, 0x80000080#32, 0x404#32, 0x400#32, 0x80010004#32) ∧
      stepped 0x10000002#32 { irqs 0x401#32 4 4 with pc := 0x80010004#32 }
        (fun t => (t.cop0.epc, t.readCause, t.pb)) = some (0x80010004#32, 0x80000400#32, none) ∧
      stepped 0x24630001#32 { irqs 0x401#32 4 4 with pc := 0x80010008#32, pb := some 0x80010010#32 }
        (fun t => (t.cop0.epc, t.readCause, t.reg 3#5)) =
        some (0x80010010#32, 0x400#32, 1#32) := by decide +kernel

/-- D, E and F: masked, IM clear, IEc clear. H: the trap comes first. I: the store enables. -/
theorem test_interrupts_not_taken :
    stepped 0x24420001#32 (irqs 0x401#32 4 0) (fun t => (t.pc, t.readCause)) = some (0x80010004#32, 0#32) ∧
      stepped 0x24420001#32 (irqs 1#32 4 4) (fun t => (t.pc, t.readCause)) =
        some (0x80010004#32, 0x400#32) ∧
      stepped 0x24420001#32 (irqs 0x400#32 4 4) (·.pc) = some 0x80010004#32 ∧
      stepped 0x0000000C#32 (irqs 0x401#32 4 4) (fun t => (t.readCause, t.cop0.epc, t.cop0.sr)) =
        some (0x420#32, 0x80010000#32, 0x404#32) ∧
      stepped 0xAC221074#32 (((irqs 0x401#32 4 0).setGpr 1#5 0x1F800000#32).setGpr 2#5 4#32)
        (fun t => (t.cop0.epc, t.intc.imask)) = some (0x80010004#32, 4#11) := by decide +kernel

/-- J and K: I_STAT is cleared by writing 0, I_MASK has 11 bits. -/
theorem test_intc :
    seen (busWrite 0x1F801070#32 .word 0xFFFFFFF7#32 (irqs 0 0xC 0)) (·.intc.istat) = some 4#11 ∧
      seen (busWrite 0x1F801074#32 .word 0xFFFF#32 (irqs 0 0 0)) (·.intc.imask) = some 0x7FF#11 := by
  decide +kernel

/-- A store of GP0 0x1F000000 sets I_STAT bit 1 and goes on; the interrupt comes at the end of the next step
(R445, R624). -/
theorem test_irq_of_store :
    let a := step (((((irqs 0x401#32 0 2).placeWord 0xAC221810#32).setGpr 1#5 0x1F800000#32).setGpr 2#5
      0x1F000000#32).setHost { HostSide.reset with ticks := [⟨0, 0, false⟩, ⟨0, 0, false⟩] })
    seen a (fun t => (t.pc, t.intc.istat)) = some (0x80010004#32, 2#11) ∧
      seen (andThen a fun t => step (t.placeWord 0#32)) (fun t => (t.pc, t.cop0.epc)) =
        some (0x80000080#32, 0x80010008#32) := by decide +kernel

/-! ## Halts and the host (section 2.8) -/

/-- The fault of an outcome. -/
def stop (o : Out) : Option Fault :=
  match o with
  | .fault e => some e
  | _ => none

theorem test_halts :
    stop (step (start.placeWord 0x0000003F#32)) =
        some (.unknownOpcode .processor 0x80010000#32 0x0000003F#32) ∧
      stop (step (start.placeWord 0x4A000002#32)) =
        some (.unknownOpcode .coprocessor 0x80010000#32 0x4A000002#32) ∧
      stop (step (start.placeWord 0x40020000#32)) =
        some (.unknownOpcode .processor 0x80010000#32 0x40020000#32) ∧
      stop (step (start.placeWord 0x4A060012#32)) =
        some (.unknownOpcode .coprocessor 0x80010000#32 0x4A060012#32) := by decide +kernel

theorem test_bus_errors :
    stop (runWord 0x8C221400#32 (regs [(1#5, 0x1F800000#32)])) = some (.busError .bus 0x1F801400#32 4#32) ∧
      stop (runWord 0x84221814#32 (regs [(1#5, 0x1F800000#32)])) = some (.busError .bus 0x1F801814#32 2#32) ∧
      stop (runWord 0xAC220000#32 (regs [(1#5, 0xBFC00000#32), (2#5, 7#32)])) =
        some (.busError .bus 0x1FC00000#32 7#32) := by decide +kernel

/-- The other value of UNDECODABLE_POLICY. -/
theorem test_reserved_instruction :
    stepped 0x0000003F#32 { start with params := { start.params with undecodable := .reservedInstruction } }
      (fun t => (t.pc, t.cop0.cause, t.cop0.epc)) =
      some (0x80000080#32, 0x28#32, 0x80010000#32) := by decide +kernel

/-- T7: continue holds with the pc at the breakpoint, before its instruction. -/
theorem test_breakpoint :
    let s := ((start.setMem (Memory.write (Memory.write (Memory.write [] 0x10000 .word 0x24420001#32) 0x10004
      .word 0x24420001#32) 0x10008 .word 0x24420001#32)).setHost
        { HostSide.reset with
          held := true, brk := [0x80010008#32]
          ticks := [⟨0, 0, false⟩, ⟨0, 0, false⟩, ⟨0, 0, false⟩] })
    let t := hostContinue 5 s
    (t.pc, t.reg 2#5, t.host.held) = (0x80010008#32, 2#32, true) ∧
      (hostStep t).reg 2#5 = 3#32 := by decide +kernel

/-! ## Coprocessor 2 (section 2.9) -/

/-- The word executed with the coprocessor's registers as given. -/
def gteRan {α : Type} (w : Word) (g : Gte) (f : Gte → α) : Option α := ran w (start.setGte g) fun t => f t.gte

/-- MAC1..3, IR1..3, FLAG. -/
def outs (g : Gte) : List Word := [25#5, 26, 27, 9, 10, 11].map g.readData ++ [g.readCtrl 31#5]

/-- The identity matrix. -/
def unit3 : Mat := ⟨⟨0x1000, 0, 0⟩, ⟨0, 0x1000, 0⟩, ⟨0, 0, 0x1000⟩⟩

/-- A matrix with only its first element. -/
def only11 : Mat := ⟨⟨0x7FFF, 0, 0⟩, .zero, .zero⟩

/-- G1 to G4. The values of G3 and G4 are those of `sf` = 1 (log 27). -/
theorem test_gte_mvmva :
    gteRan 0x4A486012#32 { Gte.reset with rt := only11, v0 := ⟨0x7FFF, 0, 0⟩ } outs =
        some [0x3FFF0#32, 0, 0, 0x7FFF#32, 0, 0, 0x81000000#32] ∧
      gteRan 0x4A486412#32 { Gte.reset with rt := unit3, v0 := ⟨0xFFFB, 7, 0x8000⟩ } outs =
        some [0xFFFFFFFB#32, 7#32, 0xFFFF8000#32, 0, 7#32, 0, 0x81400000#32] ∧
      gteRan 0x4A480012#32
          { Gte.reset with
            rt := ⟨⟨0x7FFF, 0x7FFF, 0x7FFF⟩, .zero, .zero⟩, tr := ⟨0x7FFFFFFF, 0, 0⟩
            v0 := ⟨0x7FFF, 0x7FFF, 0x7FFF⟩ } outs =
        some [0x800BFFCF#32, 0, 0, 0xFFFF8000#32, 0, 0, 0xC1000000#32] ∧
      gteRan 0x4A480012#32
          { Gte.reset with rt := only11, tr := ⟨0x80000000, 0, 0⟩, v0 := ⟨0x8000, 0, 0⟩ } outs =
        some [0x7FFC0008#32, 0, 0, 0x7FFF#32, 0, 0, 0x89000000#32] := by decide +kernel

/-- SZ3, SXY2, MAC0, IR0 besides `outs`. -/
def screen (g : Gte) : List Word × List Word := (outs g, [19#5, 14, 24, 8].map g.readData)

/-- G5 to G8. -/
theorem test_gte_rtps :
    gteRan 0x4A180001#32 { Gte.reset with rt := unit3, h := 0x200, v0 := ⟨0x100, 0x80, 0⟩ }
        (fun g => (g.readData 19#5, g.readData 14#5, g.readCtrl 31#5)) =
        some (0, 0x00FF01FF#32, 0x80020000#32) ∧
      gteRan 0x4A180001#32
          { Gte.reset with
            rt := unit3, tr := ⟨0, 0, 0xFFFFFFF0⟩, h := 0x100, v0 := ⟨0x7FFF, 0x8000, 0⟩ } screen =
        some ([0x7FFF#32, 0xFFFF8000#32, 0xFFFFFFF0#32, 0x7FFF#32, 0xFFFF8000#32, 0xFFFFFFF0#32,
          0x8007E000#32], [0, 0xFC0003FF#32, 0, 0]) ∧
      gteRan 0x4A000001#32
          { Gte.reset with rt := unit3, tr := ⟨0, 0, 0x1000⟩, h := 0x200, v0 := ⟨0x100, 0x80, 0⟩ } screen =
        some ([0x00100000#32, 0x00080000#32, 0x01000000#32, 0x7FFF#32, 0x7FFF#32, 0x7FFF#32,
          0x81806000#32], [0x1000#32, 0x03FF03FF#32, 0, 0]) ∧
      gteRan 0x4A180001#32
          { Gte.reset with
            rt := unit3, tr := ⟨0, 0, 0x400⟩, h := 0x200, v0 := ⟨0x100, 0xFF80, 0⟩, dqa := 0xFF00
            dqb := 0x01000000, ofx := 0x00A00000, ofy := 0x00780000 } screen =
        some ([0x100#32, 0xFFFFFF80#32, 0x400#32, 0x100#32, 0xFFFFFF80#32, 0x400#32, 0],
          [0x400#32, 0x00380120#32, 0x00800000#32, 0x800#32]) := by decide +kernel

/-- G9 to G11. -/
theorem test_gte_scalar :
    gteRan 0x4B400006#32
        { Gte.reset with
          sxy0 := ⟨0x8000, 0x8000⟩, sxy1 := ⟨0x7FFF, 0x8000⟩, sxy2 := ⟨0x7FFF, 0x7FFF⟩ }
        (fun g => (g.mac0, g.readCtrl 31#5)) = some (0xFFFE0001#32, 0x80010000#32) ∧
      gteRan 0x4A00002D#32 { Gte.reset with zsf3 := 0x7FFF, sz1 := 0xFFFF, sz2 := 0xFFFF, sz3 := 0xFFFF }
        (fun g => (g.mac0, g.otz, g.readCtrl 31#5)) =
        some (0x7FFB8003#32, 0xFFFF#16, 0x80050000#32) ∧
      gteRan 0x4A00002D#32 { Gte.reset with zsf3 := 0x8000, sz1 := 0xFFFF, sz2 := 0xFFFF, sz3 := 0xFFFF }
        (fun g => (g.mac0, g.otz, g.readCtrl 31#5)) =
        some (0x80018000#32, 0#16, 0x80048000#32) := by decide +kernel

/-- RGB0..2 besides `outs`. -/
def colours (g : Gte) : List Word × List Word := (outs g, [20#5, 21, 22].map g.readData)

/-- G12, G13. -/
theorem test_gte_dpcs :
    gteRan 0x4A080010#32 { Gte.reset with rgbc := 0x30604020#32, rgb1 := 1#32, rgb2 := 2#32 } colours =
        some ([0x200#32, 0x400#32, 0x600#32, 0x200#32, 0x400#32, 0x600#32, 0],
          [1#32, 2#32, 0x30604020#32]) ∧
      gteRan 0x4A080010#32 { Gte.reset with ir0 := 0x1000, fc := ⟨0x10000, 0, 0xFFFF0000⟩ } colours =
        some ([0x7FFF#32, 0, 0xFFFF8000#32, 0x7FFF#32, 0, 0xFFFF8000#32, 0x81680000#32],
          [0, 0, 0xFF#32]) := by decide +kernel

/-- G14 to G17; in G17 also the colour clamps of R344, bits 21 and 19 (log 27). -/
theorem test_gte_colour :
    gteRan 0x4A080413#32
        { Gte.reset with
          llm := unit3, lcm := unit3, v0 := ⟨0, 0, 0x1000⟩, rgbc := 0x20808080#32, ir0 := 0x800
          fc := ⟨0x1000, 0x1000, 0x1000⟩ } colours =
        some ([0x800#32, 0x800#32, 0xC00#32, 0x800#32, 0x800#32, 0xC00#32, 0],
          [0, 0, 0x20C08080#32]) ∧
      gteRan 0x4A08041E#32
          { Gte.reset with llm := unit3, lcm := unit3, v0 := ⟨0, 0, 0x1000⟩, rgbc := 0x20000000#32 }
          (fun g => (g.readData 22#5, g.readCtrl 31#5)) = some (0x20FF0000#32, 0x00080000#32) ∧
      gteRan 0x4A08041C#32
          { Gte.reset with
            lcm := unit3, bk := ⟨0x100, 0, 0⟩, ir1 := 0x800, ir2 := 0x800, ir3 := 0x800
            rgbc := 0x2C4080FF#32 }
          (fun g => ((outs g).take 3, g.readData 22#5, g.readCtrl 31#5)) =
        some ([0x8F7#32, 0x400#32, 0x200#32], 0x2C20408F#32, 0) ∧
      gteRan 0x4A08003E#32
          { Gte.reset with
            mac1 := 0x7FFFFFFF#32, mac3 := 0x80000000#32, ir1 := 0x7FFF, ir3 := 0x8000, ir0 := 0x1000 }
          outs =
        some [0x80007FFE#32, 0, 0x7FFF8000#32, 0xFFFF8000#32, 0, 0x7FFF#32, 0xC3680000#32] := by
  decide +kernel

/-- G18, the divide table and the reciprocal entries. -/
theorem test_gte_tables :
    ([(1, 31), (0x80000000, 1), (0xFFFF0000, 16), (0, 32), (0xFFFFFFFF, 32)] : List (Nat × Nat)).all
        (fun p => (Gte.reset.writeData 30#5 (BitVec.ofNat 32 p.1)).readData 31#5 == BitVec.ofNat 32 p.2) =
      true ∧
    ([(0x200, 0x1000, 0x2000, false), (0x100, 0x100, 0x10000, false), (0x1FF, 0x100, 0x1FF00, false),
      (0x200, 0x100, 0x1FFFF, true), (1, 0xFFFF, 1, false), (0xFFFF, 0x8000, 0x1FFFE, false),
      (0, 0, 0x1FFFF, true), (0, 1, 0, false), (0x155, 0x2AB, 0x7FD0, false),
      (0x200, 0x400, 0x8000, false), (0xFFFF, 0xFFFF, 0xFFFF, false), (1, 1, 0x10000, false),
      (0x8000, 0x4001, 0x1FFF8, false)] : List (Nat × Nat × Nat × Bool)).all
        (fun p =>
          let r := Gte.reset.divide (BitVec.ofNat 16 p.1) (BitVec.ofNat 16 p.2.1)
          r.1 == p.2.2.1 && (r.2.readCtrl 31#5).getLsbD 17 == p.2.2.2) = true ∧
    [0x00, 0x01, 0x80, 0xFF, 0x100].map unr = [0xFF, 0xFD, 0x54, 0, 0] := by decide +kernel

/-! ## Graphics (section 2.10) -/

/-- Words written to GP0 one by one. -/
def sent (ws : List Word) (s : State) : Out :=
  ws.foldl (fun o d => andThen o (submitCommandWord d)) (.next s)

/-- The drawing area of the vectors. -/
def canvas : State := start.setGpu { Gpu.reset with areaBr := 0x7FFFF#19 }

theorem test_transfer_sizes :
    ([(0x00010001, 1, 1, 1), (0x00030003, 3, 3, 5), (0x00020003, 3, 2, 3), (0x01FF03FF, 1023, 511, 261377),
      (0, 1024, 512, 262144), (0x02000400, 1024, 512, 262144)] : List (Nat × Nat × Nat × Nat)).all
      (fun p =>
        seen (exec (.gp0ToVram 0 0 (BitVec.ofNat 32 p.1)) start)
          (fun t => (t.gpu.rect.w, t.gpu.rect.h, t.gpu.rem)) == some p.2) = true := by decide +kernel

/-- Three by three: four data words, then the fifth. -/
theorem test_three_by_three :
    seen (sent [0xA0000000#32, 0, 0x00030003#32, 1, 2, 3, 4] start)
        (fun t => (t.gpu.readStat, t.gpu.mode)) = some (0x10802000#32, .toVram) ∧
      seen (sent [0xA0000000#32, 0, 0x00030003#32, 1, 2, 3, 4, 5] start)
        (fun t => (t.gpu.readStat, t.gpu.mode, t.gpu.vram.length)) =
        some (0x14802000#32, .idle, 9) := by decide +kernel

/-- The wrap vector of R462, and the read back of two of its pixels (R466). -/
theorem test_transfer_wrap :
    seen (sent [0xA0000000#32, 1022#32, 0x00010004#32, 0x22221111#32, 0x44443333#32] start)
        (·.gpu.vram) =
        some [(0, 0x3333#16), (1, 0x4444#16), (1022, 0x1111#16), (1023, 0x2222#16)] ∧
      seen (sent [0xA0000000#32, 1022#32, 0x00010004#32, 0x22221111#32, 0x44443333#32, 0xC0000000#32,
          1023#32, 0x00010002#32] start)
        (fun t => ((gpuRead t).1, t.gpu.readStat, (gpuRead t).2.gpu.mode)) =
        some (0x33332222#32, 0x08802000#32, .idle) := by decide +kernel

/-- The GPUSTAT table. -/
theorem test_gpustat :
    ([([0xE1000508#32], 0x14802508#32), ([0xE6000003#32], 0x14803800#32), ([0x1F000000#32], 0x15802000#32)] :
      List (List Word × Word)).all (fun p => seen (sent p.1 start) (·.gpu.readStat) == some p.2) = true ∧
    ([(0x03000000#32, 0x14002000#32), (0x04000002#32, 0x56802000#32), (0x04000003#32, 0x74802000#32),
      (0x04000001#32, 0x36802000#32), (0x08000001#32, 0x14822000#32), (0x08000020#32, 0x14C02000#32)] :
      List (Word × Word)).all (fun p => seen (runGp1 p.1 start) (·.gpu.readStat) == some p.2) = true ∧
    seen (runGp1 0x08000020#32 start) (fun t => (vblank true t).gpu.readStat) = some 0x94C00000#32 ∧
    (vblank true start).gpu.readStat = 0x94802000#32 := by decide +kernel

/-- The interrupt command and its acknowledge; reset in the middle of a transfer. -/
theorem test_gpu_irq_reset :
    seen (sent [0x1F000000#32] start)
        (fun t => (t.intc.istat, seen (runGp1 0x02000000#32 t) (·.gpu.readStat))) =
        some (2#11, some 0x14802000#32) ∧
      seen (sent [0xE1000508#32, 0xA0000000#32, 0] start)
        (fun t => (t.gpu.mode, seen (runGp1 0 t) (fun u => (u.gpu.readStat, u.gpu.mode, u.gpu.buf)))) =
        some (.awaiting 1, some (0x14802000#32, .idle, [])) := by decide +kernel

/-- Vertex, offset and palette fields. -/
theorem test_vertex_fields :
    (start.gpu.screenX 0x07FF07FF#32, start.gpu.screenY 0x07FF07FF#32) = (-1, -1) ∧
      (start.gpu.screenX 0xFFFF0400#32, start.gpu.screenY 0xFFFF0400#32) = (-1024, -1) ∧
      seen (exec (.gp0Offset 0x0007FF#24) start) (fun t => (t.gpu.screenX 0, t.gpu.screenY 0)) =
        some (-1, 0) ∧
      seen (exec (.gp0Offset 0x200400#24) start) (fun t => (t.gpu.screenX 0, t.gpu.screenY 0)) =
        some (-1024, -1024) ∧
      (clutX 0x78012010#32, clutY 0x78012010#32) = (16, 480) ∧
      (start.gpu.vertex 0 0 0x78012010#32).u = 0x10 ∧ (start.gpu.vertex 0 0 0x78012010#32).v = 0x20 := by
  decide +kernel

theorem test_fill :
    seen (sent [0x02FF0000#32, 0, 0x00100010#32] canvas)
        (fun t => (t.gpu.vram.length, t.gpu.vram.all fun c =>
          c.1 / 1024 < 16 && c.1 % 1024 < 16 && c.2 == 0x7C00#16)) = some (256, true) ∧
      seen (sent [0x02FF0000#32, 5#32, 0x00010011#32] canvas)
        (fun t => (t.gpu.vram.length, (t.gpu.vram.map Prod.fst).getLast?)) = some (32, some 31) ∧
      seen (sent [0x02FF0000#32, 0, 0x00010400#32] canvas) (·.gpu.vram) = some [] := by decide +kernel

theorem test_drawing :
    seen (sent [0x200000FF#32, 0, 4#32, 0x00040000#32] canvas) (·.gpu.vram) =
        some ([0, 1, 2, 3, 1024, 1025, 1026, 2048, 2049, 3072].map fun n => (n, 0x001F#16)) ∧
      seen (sent [0x4000FF00#32, 0, 0x00010003#32] canvas) (·.gpu.vram) =
        some ([0, 1, 1026, 1027].map fun n => (n, 0x03E0#16)) ∧
      seen (sent [0x4000FF00#32, 0x00010003#32, 0] canvas) (·.gpu.vram) =
        some ([0, 1, 1026, 1027].map fun n => (n, 0x03E0#16)) ∧
      seen (sent [0x60FFFFFF#32, 0x00020001#32, 0x00020003#32] canvas) (·.gpu.vram) =
        some ([2049, 2050, 2051, 3073, 3074, 3075].map fun n => (n, 0x7FFF#16)) ∧
      seen (sent [0x68FFFFFF#32, 0x00050007#32] canvas) (·.gpu.vram) = some [(5127, 0x7FFF#16)] := by
  decide +kernel

theorem test_copy :
    seen (sent [0x80000000#32, 0, 0x00100020#32, 0x00020002#32]
        (start.setGpu { Gpu.reset with vram := [(0, 1#16), (1, 2#16), (1024, 3#16), (1025, 4#16)] }))
      (fun t => t.gpu.vram.drop 4) =
      some [(16416, 1#16), (16417, 2#16), (17440, 3#16), (17441, 4#16)] := by decide +kernel

/-- Blending, modulation, the mask bits. -/
theorem test_pixel_arithmetic :
    [0, 1, 2, 3].map (fun a => (blend a 0x10 0x08, blend a 0x1F 0x1F)) =
        [(0x0C, 0x1F), (0x18, 0x1F), (0x08, 0x00), (0x12, 0x1F)] ∧
      (modulate 0x1F 0x80, modulate 0x1F 0xFF, modulate 0x10 0x40) = (0xF8, 0xFF, 0x40) ∧
      ({ Gpu.reset with stat := 0x800#32 }.put 0 0 0x1234#16).vram = [(0, 0x9234#16)] ∧
      ({ Gpu.reset with stat := 0x1000#32, vram := [(0, 0x8000#16)] }.put 0 0 0x1234#16).vram =
        [(0, 0x8000#16)] := by decide +kernel

theorem test_graphics_halts :
    stop (submitCommandWord 0x48000000#32 start) =
        some (.unknownOpcode .graphics 0x1F801810#32 0x48000000#32) ∧
      stop (sent [0xC0000000#32, 0, 0x00010001#32, 7] start) =
        some (.dmaDesyncError .graphics 0x1F801810#32 7#32) ∧
      stop (runGp1 0x09000000#32 start) =
        some (.unknownOpcode .graphics 0x1F801814#32 0x09000000#32) := by decide +kernel

/-! ## Disc (section 2.11) -/

/-- Bytes stored to the disc ports. -/
def stores (l : List (Nat × Word)) (s : State) : Out :=
  l.foldl (fun o p => andThen o (busWrite (BitVec.ofNat 32 (0x1F801800 + p.1)) .byte p.2)) (.next s)

/-- A byte loaded from a disc port, and the state after it. -/
def loaded (k : Nat) (s : State) : Option (Word × State) :=
  (busRead (BitVec.ofNat 32 (0x1F801800 + k)) .byte s).toOption

/-- A disc of 20 sectors, each byte of sector n being n; in the drive. -/
def inDrive : State :=
  start.setCdc { Cdc.reset with disc := some ((List.range 20).map fun n => List.replicate 2352 (BitVec.ofNat 8 n)) }

/-- A command is queued with the acknowledge delay (R514). With the shortest delay longer than CPI it is answered in the
slot of the next invocation, not of its own (R696 (c)); with the longest that is not longer, in its own (R512). -/
theorem test_response_slot :
    let a (ack : Nat) := step ({ (inDrive.setGpr 1#5 0x1F800000#32).setGpr 2#5 1#32 with
      params := { start.params with ackPred := ack - 1, cpiPred := 3 }
      host := { start.host with ticks := [⟨0, 0, false⟩, ⟨0, 0, false⟩] } }.placeWord 0xA0221801#32)
    let b := andThen (a 5) fun t => step (t.placeWord 0#32)
    seen (stores [(1, 1)] { inDrive with params := { start.params with ackPred := 4 } }) (fun t => t.cdc.queue) =
        some [⟨5, .ack .getstat []⟩] ∧
      ([a 5, b, a 4].map fun o => seen o fun t => (t.cdc.iflag, t.cdc.resp)) =
        [some (0, []), some (3, [0x02#8]), some (3, [0x02#8])] := by decide +kernel

/-- A disc with a sector of another size is refused; the first address has an exact form. -/
theorem test_disc_sizes :
    Cdc.wellSized inDrive.cdc.disc = true ∧ Cdc.wellSized (some [[0#8]]) = false ∧
      lba 0 0 0 = -150 ∧ msf (-150) = (0, 0, 0) := by decide +kernel

/-- Getstat, step by step. -/
theorem test_getstat :
    let a := stores [(0, 1), (2, 0x1F), (0, 0)] inDrive
    let b := andThen a (stores [(1, 1)])
    let c := andThen b fun s => .next (discAdvance 10 s)
    let d := andThen c (stores [(0, 1)])
    seen a (fun s => (loaded 0 s).map Prod.fst) = some (some 0x18#32) ∧
      seen b (fun s => (loaded 0 s).map Prod.fst) = some (some 0x98#32) ∧
      seen c (fun s => (s.cdc.resp, s.cdc.iflag, s.intc.istat, (loaded 0 s).map Prod.fst)) =
        some ([0x02#8], 3#3, 4#11, some 0x38#32) ∧
      seen d (fun s => ((loaded 0 s).map Prod.fst, (loaded 3 s).map Prod.fst)) =
        some (some 0x39#32, some 0xE3#32) ∧
      seen d (fun s => (loaded 1 s).map fun p => (p.1, (loaded 0 p.2).map Prod.fst)) =
        some (some (2#32, some 0x19#32)) ∧
      seen (andThen d (stores [(3, 7)])) (fun s => (loaded 3 s).map Prod.fst) =
        some (some 0xE0#32) := by decide +kernel

/-- An unknown command byte; ReadN without a disc. -/
theorem test_disc_errors :
    seen (stores [(1, 0x50)] inDrive) (fun s => ((discAdvance 10 s).cdc.resp, (discAdvance 10 s).cdc.iflag)) =
        some ([0x03#8, 0x40#8], 5#3) ∧
      seen (stores [(1, 6)] start) (fun s => ((discAdvance 10 s).cdc.resp, (discAdvance 10 s).cdc.iflag)) =
        some ([0x13#8, 0x80#8], 5#3) := by decide +kernel

/-- Setloc; the addresses of sector 16. -/
theorem test_setloc :
    seen (stores [(2, 0), (2, 2), (2, 0x16), (1, 2)] inDrive)
        (fun s => ((discAdvance 10 s).cdc.target, (discAdvance 10 s).cdc.resp)) =
        some (some 16, [0x02#8]) ∧
      lba 0 2 0x16 = 16 ∧ msf 16 = (0x00#8, 0x02#8, 0x16#8) := by decide +kernel

/-- ReadN from sector 16: acknowledged first. -/
def readA : Out :=
  andThen (stores [(1, 6)] (inDrive.setCdc { inDrive.cdc with target := some 16, ien := 0x1F })) fun s =>
    .next (discAdvance 10 s)

/-- Then, acknowledged, the sector. -/
def readB : Out := andThen (andThen readA (stores [(0, 1), (3, 7)])) fun s => .next (discAdvance 50 s)

/-- The data request, and Pause. -/
def readC : Out :=
  andThen (andThen readB (stores [(0, 0), (3, 0x80), (1, 9), (0, 1), (3, 7)])) fun s =>
    .next (discAdvance 10 s)

theorem test_readN :
    seen readA (fun s => (s.cdc.iflag, s.cdc.resp, s.cdc.pos)) = some (3#3, [0x02#8], 16) ∧
      seen readA (fun s => (s.cdc.dmode, s.cdc.sector)) = some (.reading, none) ∧
      seen readB (fun s => (s.cdc.iflag, s.cdc.resp, s.cdc.pos)) = some (1#3, [0x22#8], 17) ∧
      seen readB (fun s => (s.cdc.sector.getD []).take 2) = some [16#8, 16#8] := by decide +kernel

theorem test_request_pause :
    seen readC (fun s => (s.cdc.data.length, s.cdc.data.head?)) = some (2048, some 16#8) ∧
      seen readC (fun s => (s.cdc.iflag, s.cdc.resp, s.cdc.dmode)) = some (3#3, [0x22#8], .idle) ∧
      seen (andThen (andThen readC (stores [(3, 7)])) fun s => .next (discAdvance 10 s))
        (fun s => (s.cdc.iflag, s.cdc.resp)) = some (2#3, [0x02#8]) := by decide +kernel

/-! ## DMA (section 2.12) -/

/-- The engine's registers as listed, channel `n` filled in. -/
def engine (n : Nat) (madr : BitVec 24) (bcr chcr : Word) (s : State) : State :=
  s.setDma ({ Dma.reset with dpcr := 0x0F654B21#32, dicr := 0x00840000#32 }.setChan n ⟨madr, bcr, chcr⟩)

theorem test_dma_masks :
    let w (a : Word) := seen (busWrite a .word 0xFFFFFFFF#32 start)
      fun t => (busRead a .word t).toOption.map Prod.fst
    w 0x1F801080#32 = some (some 0x00FFFFFF#32) ∧ w 0x1F801088#32 = some (some 0x71770703#32) ∧
      w 0x1F8010E8#32 = some (some 0x51000002#32) := by decide +kernel

/-- The ordering-table clear, then the linked list over it, which raises the interrupt. -/
theorem test_ordering_table :
    let a := dmaSlot (engine 6 0x1000#24 4#32 0x11000000#32 start)
    let b := andThen a fun s => dmaSlot (s.setDma (s.dma.setChan 2 ⟨0x1000#24, 0, 0x01000401#32⟩))
    seen a (fun s => ([0x1000, 0xFFC, 0xFF8, 0xFF4].map s.wordAt, s.dma.readChcr 6)) =
        some ([0xFFC#32, 0xFF8#32, 0xFF4#32, 0x00FFFFFF#32], 2#32) ∧
      seen b (fun s => ((s.dma.chan 2).madr, s.dma.readChcr 2, s.dma.readDicr, s.intc.istat)) =
        some (0xFFFFFF#24, 0x401#32, 0x84840000#32, 8#11) := by decide +kernel

/-- Five data words by channel 2, and one word short. -/
theorem test_dma_upload :
    let s (n : Word) : Out := andThen (sent [0xA0000000#32, 0, 0x00030003#32] (start.setMem
        (Memory.writeBytes [] 0x1000 (List.replicate 20 1)))) fun s =>
      dmaSlot (engine 2 0x1000#24 n 0x01000201#32 s)
    seen (s 0x00010005#32) (fun t => ((t.dma.chan 2).madr, (t.dma.chan 2).bcr, t.gpu.mode, t.dma.readChcr 2)) =
        some (0x1014#24, 5#32, .idle, 0x201#32) ∧
      stop (s 0x00010004#32) =
        some (.dmaDesyncError .dma 0x1F8010A8#32 0x01000201#32) := by decide +kernel

/-- A list that does not end, the cap made small; DICR's acknowledge and force. -/
theorem test_dma_rest :
    let s := engine 2 0x1000#24 0 0x01000401#32
      (start.setMem (Memory.writeBytes [] 0x1000 [0x00, 0x10, 0x00, 0x00]))
    stop (dmaSlot { s with params := { s.params with llCap := 3 } }) =
        some (.dmaDesyncError .dma 0x1000#32 0x1000#32) ∧
      seen (busWrite 0x1F8010F4#32 .word 0x04840000#32
          (start.setDma { Dma.reset with dicr := 0x04840000#32 })) (·.dma.readDicr) =
        some 0x00840000#32 ∧
      seen (busWrite 0x1F8010F4#32 .word 0x8000#32 start) (fun t => (t.dma.readDicr, t.intc.istat)) =
        some (0x80008000#32, 8#11) := by decide +kernel

/-- A transfer whose second word halts at the GP0 port: what the host finds has the first word's effect, and HALT; an
instruction that halts leaves the machine as it was (R60, R47). -/
theorem test_halt_in_slot :
    let s := (engine 2 0#24 2#32 0x11000001#32
      (setRamWord 4 0xFF000000#32 (setRamWord 0 0xE1000005#32 start))).placeWord 0#32
    let u := start.placeWord 0x0000003F#32
    (slotLast 7 s).gpu.readStat.extractLsb' 0 11 = 5 ∧ (slotLast 7 s).wordAt 4 = 0xFF000000#32 ∧
      ((observed s).halt, (observed s).pc) =
        (some ⟨.unknownOpcode, .graphics, 0x1F801810#32, 0xFF000000#32⟩, 0x80010004#32) ∧
      ((observed u).halt.isSome, (observed u).pc) = (true, 0x80010000#32) := by decide +kernel

/-- One word short, as the host finds it: START of channel 2 stays set (the row of that name in section 2.12). -/
theorem test_start_stays :
    let s := engine 2 0x1000#24 0x00010004#32 0x01000201#32 ((setRamWord 0x1000 0xA0000000#32 (setRamWord 0x1004 0#32
      (setRamWord 0x1008 0x00030003#32 (setRamWord 0x100C 0#32 start)))).placeWord 0#32)
    seen (processorStep s) (fun t => stop (dmaSlot t)) =
        some (some (.dmaDesyncError .dma 0x1F8010A8#32 0x01000201#32)) ∧
      ∀ t, (slotLast 7 t).dma = s.dma →
        ((haltedSlot (.dmaDesyncError .dma 0x1F8010A8#32 0x01000201#32) t).dma.chan 2).chcr.getLsbD 24 = true :=
  ⟨by decide +kernel, fun t h => haltedEngine_start (by rw [endsUnready, h]; decide +kernel)⟩

/-! ## Timers (section 2.13) -/

/-- Mode after a write, then after `n` ticks: count, whether an interrupt came, mode. -/
def timed (target : BitVec 16) (mode : Word) (n : Nat) : BitVec 16 × Bool × BitVec 13 :=
  let r := Timer.ticks n ({ Timer.reset with target := target }.writeMode mode)
  (r.1.count, r.2, r.1.mode)

theorem test_timer_modes :
    [0, 1, 3, 4].map (timed 3 0x258#32) =
        [(0, false, 0x658#13), (1, false, 0x658#13), (3, true, 0xE58#13), (0, true, 0xE58#13)] ∧
      [1, 2, 3].map (timed 1 0xD8#32) =
        [(1, true, 0x8D8#13), (0, true, 0x8D8#13), (1, true, 0xCD8#13)] ∧
      timed 2 0x18#32 2 = (2, true, 0xC18#13) ∧
      (Timer.ticks 1 { count := 2, target := 2, mode := 0x418#13, fired := true, gate := false }).2 = false ∧
      timed 0 0x58#32 3 = (0, true, 0xC58#13) ∧
      (Timer.ticks 2 { ({ Timer.reset with target := 0 }.writeMode 0x20#32) with count := 0xFFFE#16 }).1.mode =
        0x1C20#13 := by decide +kernel

/-- The prescaler with three cycles a slot, and a blank tick before the source ticks. -/
theorem test_timer_slots :
    let s := start.setTimers { Timers.reset with t2 := { Timer.reset with mode := 0x200#13 } }
    let f (n : Nat) : State := countUp n (fun _ => timersSlot 3 0 0 false) s
    [2, 3, 5, 6, 7, 8, 10, 11].map (fun n => (f n).timers.t2.count) = [0, 1, 1, 2, 2, 3, 3, 4] ∧
      (timersSlot 2 0 0 true (start.setTimers
        { Timers.reset with t1 := { Timer.reset with mode := 0x003#13, count := 9 } })).timers.t1.count =
        2#16 := by decide +kernel

/-! ## The first instruction after reset -/

/-- The table's rows that are given decode, and the step that fetches them goes on. -/
theorem test_first_instruction :
    ([(32, 0x00000020), (32, 0x0000001A), (32, 0x8C000000), (32, 0x88000000), (32, 0x04110000),
      (32, 0x0000000C), (32, 0x42000010), (32, 0x4A000012), (32, 0x20000000), (32, 0xC0000000),
      (32, 0xE1000000), (32, 0x10000000), (8, 0x01), (8, 0x02),
      (8, 0x19)] : List (Nat × Nat)).all
      (fun p => (decodeTableWord p.1 p.2).isSome && goes (step (State.reset.withFetchWord p.1 p.2))) =
      true := by decide +kernel

theorem test_first_effects :
    seen (step (State.reset.withFetchWord 32 0x3C011234)) (·.reg 1#5) = some 0x12340000#32 ∧
      seen (step (State.reset.withFetchWord 32 0xE3001402)) (·.gpu.areaTl) = some 0x01402#19 ∧
      seen (step (State.reset.withFetchWord 32 0xC0000000)) (·.gpu.mode) = some .fromVram ∧
      seen (processorStep (State.reset.withFetchWord 8 0x02)) (·.cdc.param) = some [] := by decide +kernel

/-! ## Witnesses: states and operands that meet the hypotheses of the obligations -/

theorem goes_next {o : Out} (h : goes o = true) : ∃ t, o = .next t := by
  cases o with
  | next t => exact ⟨t, rfl⟩
  | fault e => simp [goes, seen] at h
  | refused e => simp [goes, seen] at h

/-- `start` with `x1` and a word at the pc. -/
def at1 (x1 w : Word) : State := (regs [(1#5, x1)]).placeWord w

theorem witness_ResetDevices : isStub 0x1F000000 = true ∧ isStub 0xFFFE0133 = true ∧ 2 < 3 ∧ 6 < 7 := by
  decide

theorem witness_RegisterWrites : (start.setReg 0 5).reg 0 = 0 ∧ (start.setReg 31 5).reg 31 = 5 := by decide +kernel

/-- The last sums inside and the first outside, for ADD and SUB; the ends of ADDI's range. -/
theorem witness_TrappingArithmetic :
    let s := regs [(1#5, 0x7FFFFFFF#32), (2#5, 1#32), (3#5, 0x80000000#32)]
    let fits (v : Int) : Bool := decide (-(2 ^ 31) ≤ v ∧ v ≤ 2 ^ 31 - 1)
    fits ((s.reg 1).toInt + (s.reg 0).toInt) = true ∧ fits ((s.reg 1).toInt + (s.reg 2).toInt) = false ∧
      fits ((s.reg 3).toInt - (s.reg 0).toInt) = true ∧ fits ((s.reg 3).toInt - (s.reg 2).toInt) = false ∧
      fits ((s.reg 3).toInt + (0#16).toInt) = true ∧
      fits ((s.reg 3).toInt + (0xFFFF#16).toInt) = false := by decide +kernel

/-- Outside the corners, by zero, and the overflowing quotient, with the default table. -/
theorem witness_DivideResults :
    let s := regs [(1#5, 0x80000000#32), (2#5, 0xFFFFFFFF#32), (3#5, 1#32)]
    (s.reg 3 ≠ 0 ∧ ¬(s.reg 1 = 0x80000000#32 ∧ s.reg 3 = 0xFFFFFFFF#32)) ∧ s.reg 0 = 0 ∧
      (s.reg 1 = 0x80000000#32 ∧ s.reg 2 = 0xFFFFFFFF#32) ∧ s.params.divCorner = .table := by
  decide +kernel

theorem witness_SegmentMap :
    (0x7FFFFFFF#32).toNat < 0x80000000 ∧
      (0x80000000 ≤ (0x9FFFFFFF#32).toNat ∧ (0x9FFFFFFF#32).toNat < 0xA0000000) ∧
      (0xA0000000 ≤ (0xBFFFFFFF#32).toNat ∧ (0xBFFFFFFF#32).toNat < 0xC0000000) ∧
      0xC0000000 ≤ (0xC0000000#32).toNat ∧ (0x1FFFFFFF#32).toNat < 0x20000000 := by decide

/-- First and last word of RAM and scratchpad, a latch, a byte. -/
theorem witness_ReadAfterWrite :
    start.memoryCanonical = true ∧
      [0x00000000#32, 0x001FFFFC#32, 0x1F800000#32, 0x1F8003FC#32, 0x1F801000#32].all
        (fun a => storableAt a .word) = true ∧
      storableAt 0x001FFFFF#32 .byte = true ∧ storableAt 0x1F8003FE#32 .half = true := by decide +kernel

theorem witness_PlainLoads :
    let s := at1 0x9FC7FFFC#32 0
    let pa := phys (s.reg 1 + (0#16).signExtend 32)
    plainAt pa .byte = true ∧ plainAt pa .half = true ∧ plainAt pa .word = true ∧
      (s.reg 1 + (0#16).signExtend 32).toNat % 4 = 0 := by decide +kernel

/-- Addresses 0x80000000, where the bus answers, and 0x40000000, where nothing is. -/
theorem witness_BusAccess :
    ([Width.byte, .half, .word].all fun n =>
      (busRead (phys (0x80000000#32 + (0#16).signExtend 32)) n start).toOption.isSome &&
        (busRead (phys (0x40000000#32 + (0#16).signExtend 32)) n start).toOption.isNone) = true ∧
    start.isolated = false ∧ (mode 0x10000#32 0).isolated = true := by decide +kernel

theorem witness_UnalignedLoads :
    [0#32, 1#32, 2#32, 3#32].all (fun ea =>
      (busRead (phys (ea &&& 0xFFFFFFFC#32)) .word start).toOption.isSome) = true := by decide +kernel

theorem witness_UnalignedPair : ((at1 0x1FFFF8#32 0).reg 1).toNat = 0x1FFFF8 ∧ 0x1FFFF8 + 7 < 0x200000 := by
  decide +kernel

theorem witness_PlainStores :
    start.memoryCanonical = true ∧ start.isolated = false ∧
      [Width.byte, .half, .word].all (fun n => storableAt (phys 0xA01FFFFC#32) n) = true ∧
      (0xA01FFFFC#32).toNat % 4 = 0 ∧
      phys ((at1 0x1F802023#32 0).reg 1 + (0#16).signExtend 32) = 0x1F802023#32 := by decide +kernel

/-- Offsets 0 and 3 in the last word of the scratchpad. -/
theorem witness_UnalignedStores :
    start.memoryCanonical = true ∧ start.isolated = false ∧
      storableAt (phys (0x1F8003FC#32 &&& 0xFFFFFFFC#32)) .word = true ∧
      storableAt (phys (0x1F8003FF#32 &&& 0xFFFFFFFC#32)) .word = true := by decide +kernel

/-- An odd address, and one that is even but no multiple of 4. -/
theorem witness_MisalignedAccess :
    ((at1 1#32 0).reg 1 + (0#16).signExtend 32).toNat % 2 ≠ 0 ∧
      ((at1 2#32 0).reg 1 + (0#16).signExtend 32).toNat % 4 ≠ 0 ∧
      (∃ t, exec (.swl 2#5 1#5 0#16) (at1 2#32 0) = .next t) ∧
      ∃ t, exec (.swr 2#5 1#5 0#16) (at1 2#32 0) = .next t :=
  ⟨by decide +kernel, by decide +kernel, goes_next (by decide +kernel), goes_next (by decide +kernel)⟩

/-- The byte after RAM, a width a port does not take, both ends of ROM, two rows of the map. -/
theorem witness_BusErrors :
    owner 0x00200000#32 .byte = none ∧ owner 0x1F801814#32 .half = none ∧
      (0x1FC00000 ≤ (0x1FC7FFFC#32).toNat ∧ (0x1FC7FFFC#32).toNat + Width.word.bytes ≤ 0x1FC80000) ∧
      (0x1FC00000 ≤ (0x1FC00000#32).toNat ∧ (0x1FC00000#32).toNat + Width.byte.bytes ≤ 0x1FC80000) ∧
      (addressMap.all fun r => r.holds r.base 1) = true ∧ addressMap ≠ [] := by decide +kernel

/-- Both widths, the first and last timer and channel, and each disc index and request of a clause. -/
theorem witness_DeviceRegisters :
    (Width.half ≠ .byte ∧ Width.word ≠ .byte ∧ 0 < 3 ∧ 2 < 3 ∧ 0 < 7 ∧ 6 < 7) ∧ Cdc.reset.ix = 0 ∧
      ({ Cdc.reset with ix := 1 }).ix = 1 ∧ (0x7F#8).getLsbD 7 = false ∧ (0x80#8).getLsbD 7 = true ∧
      ({ Cdc.reset with sector := some [1#8] }).sector = some [1#8] ∧ Cdc.reset.sector = none := by decide

/-- The lowest, one inner and the highest number that names no register. -/
theorem witness_Cop0Moves :
    [0#5, 4#5, 10#5, 16#5, 31#5].all
      (fun r : RegNum => decide (r.toNat ∉ [3, 5, 6, 7, 8, 9, 11, 12, 13, 14, 15])) = true := by decide

/-- A software request, and an unmasked bit that was set before the step. -/
theorem witness_InterruptPending :
    start.stage.excepted = false ∧
      ((mode 0x101#32 0).cop0.sr.getLsbD 0 && ((mode 0x101#32 0).cop0.sr.getLsbD 8 && (0x100#32).getLsbD 8)) =
        true ∧
      (irqs 0x401#32 4 4).latch.intc.istat &&& ~~~(irqs 0x401#32 4 4).latch.stage.young &&& 4#11 ≠ 0 := by
  decide +kernel

theorem witness_ReturnFromException :
    ∃ t u, raise .ov start = .next t ∧ exec .rfe t = .next u := ⟨_, _, rfl, rfl⟩

/-- Every data register falls under one of the clauses; two numbers that differ. -/
theorem witness_GteRegisters :
    (List.range 32).all (fun n =>
      decide (n ∈ [0, 2, 4, 6, 12, 13, 14, 15, 20, 21, 22, 23, 24, 25, 26, 27, 30]) ||
        decide (n ∈ [1, 3, 5, 8, 9, 10, 11]) || decide (n ∈ [7, 16, 17, 18, 19]) || n == 28 || n == 29 ||
        n == 31) = true ∧
      (31#5 : RegNum) ≠ 30#5 := by decide

theorem witness_LeadingCount :
    ({ Gte.reset with lzcs := 1#32 }.readData 31#5).toNat < 32 ∧ ¬(Gte.reset.readData 31#5).toNat < 32 := by
  decide +kernel

theorem witness_GteVectorCommands :
    (⟨0, true, 2, 0, 0, 0, false, 0⟩ : GteArgs).mx ≠ 3 ∧ (⟨0, true, 3, 0, 0, 0, false, 0⟩ : GteArgs).mx = 3 := by
  decide

theorem witness_SaturationFlags : 1 ≤ 1 ∧ 1 ≤ 3 ∧ 3 ≤ 3 := by decide

/-- A 16 by 1 fill at (1008, 511) covers its corner and not (0, 0); one of width 17 wraps onto (0, 511). -/
theorem witness_FillPixels :
    (∃ i j, i < 16 ∧ j < 1 ∧ 1023 = (1008 + i) % 1024 ∧ 511 = (511 + j) % 512) ∧
      (¬∃ i j, i < 16 ∧ j < 1 ∧ 0 = (1008 + i) % 1024 ∧ 0 = (511 + j) % 512) ∧
      ∃ i j, i < 32 ∧ j < 1 ∧ 0 = (1008 + i) % 1024 ∧ 511 = (511 + j) % 512 :=
  ⟨⟨15, 0, by decide⟩, fun ⟨_, _, _, h, _, h'⟩ => by omega, ⟨16, 0, by decide⟩⟩

/-- The three primitives complete; the area is the one pixel (0, 0), the pixel (1, 0) outside it. -/
theorem witness_DrawingAreaRespected :
    ([Instr.gp0Polygon false false false false false 0 [0, 4, 0x40000], .gp0Line false false false false 0 [0, 4],
      .gp0Rect 0#2 false false false 0 [0, 0x10004]].all fun i => goes (exec i start)) = true ∧
    ¬((start.gpu.areaTl.extractLsb' 0 10).toNat ≤ 1 ∧ 1 ≤ (start.gpu.areaBr.extractLsb' 0 10).toNat ∧
      (start.gpu.areaTl.extractLsb' 10 9).toNat ≤ 0 ∧ 0 ≤ (start.gpu.areaBr.extractLsb' 10 9).toNat) := by
  decide +kernel

theorem witness_InterpolationBounds :
    ((0 : Int) ≤ 3 ∧ (0 : Int) ≤ 0 ∧ (0 : Int) < 3 + 0 + 0) ∧ (0 : Int) < 1 + 1 + 1 ∧
      (0 ≤ 0 ∧ 0 ≤ 4 ∧ 4 ≤ 4 ∧ 0 < 4) := by decide

/-- A 3 by 3 upload: four words are fewer than the five it takes; an open transfer the other way; a pixel inside the
rectangle and one outside. -/
theorem witness_UploadWordCount :
    (start.gpu.mode ≠ .fromVram ∧
      let g := start.gpu.openTransfer .fromVram 0 0x00030003#32
      g.mode = .fromVram ∧ g.transferring = true) ∧
    (1 < 3 ∧ 2 < 3 ∧ ¬∃ i j, i < 3 ∧ j < 3 ∧ 3 = (0 + i) % 1024 ∧ 0 = (0 + j) % 512) ∧
    ∃ t, exec (.gp0ToVram 0 0 0x00030003#32) start = .next t ∧
      [1#32, 2, 3, 4].length < t.gpu.rem ∧ [1#32, 2, 3, 4, 5].length = t.gpu.rem :=
  ⟨by decide +kernel, ⟨by decide, by decide, fun ⟨_, _, _, _, _, _⟩ => by omega⟩, _, rfl, by decide +kernel,
    by decide +kernel⟩

theorem witness_CommandWordByWord :
    (Instr.gp0Fill 0 0 0).space = .gp0 ∧ (Instr.gp0Fill 0 0 0).wf = true ∧ start.gpu.mode = .idle := by
  decide +kernel

/-- The engine's channels, each active with the CHCR of one clause. -/
theorem witness_GraphicsAndDmaHalts :
    ([0x03, 0x1E, 0x48, 0x4F, 0x58, 0x5F, 0x81, 0x9F, 0xA1, 0xBF, 0xC1, 0xDF, 0xE0, 0xE7, 0xFF].all
      (fun c => gp0Words (BitVec.ofNat 8 c) == none) = true ∧ start.gpu.mode = .idle) ∧
      ({ Gpu.reset with mode := .fromVram }).mode = .fromVram ∧
      ((0x09000000#32).extractLsb' 24 8).toNat ∉ [0, 1, 2, 3, 4, 5, 6, 7, 8, 16] ∧
      ([(0, 0x11000000), (5, 0x11000000), (3, 0x01000600), (2, 0x01000600), (3, 0x01000400), (2, 0x01000400),
        (2, 0x01000200), (3, 0x01000201), (2, 0x01000201), (2, 0x01000401), (3, 0x01000200)] : List (Nat × Nat)).all (fun p =>
        ({ Dma.reset with dpcr := 0xFFFFFFFF#32 }.setChan p.1 ⟨0, 0, BitVec.ofNat 32 p.2⟩).active p.1) =
        true := by decide +kernel

/-- The premises of its clauses about a transfer that went through: a unit left awaiting, a unit left to be read, a
list whose end leaves the unit awaiting, a list that points to itself, and too few bytes. -/
theorem witness_GraphicsAndDmaHalts_ends :
    let sent := engine 2 0#24 1#32 0x01000201#32 (setRamWord 0 0xA0000000#32 start)
    let back := (engine 2 0#24 1#32 0x01000200#32 start).setGpu
      (start.gpu.openTransfer .fromVram 0 0x00030003#32)
    let node := (setRamWord 0x10 0x10#32 start).wordAt (0x10#32 &&& 0x1FFFFC#32).toNat
    let list := setRamWord 4 0xA0000000#32 (setRamWord 0 0x01FFFFFF#32 start)
    seen (repeatOut 1 (wordToGpu (sent.dma.chan 2)) sent) (·.gpu.mode) = some (.awaiting 2) ∧
      seen (repeatOut 1 (wordFromGpu (back.dma.chan 2)) back) (·.gpu.mode) = some .fromVram ∧
      (linkedNodes 1 0 0 list).toOption.map (·.2.gpu.mode) = some (.awaiting 2) ∧
      (node.extractLsb' 24 8 = 0 ∧ node.getLsbD 23 = false ∧ node.extractLsb' 0 24 = 0x10#24) ∧
      start.cdc.data.length < 4 * 1 := by decide +kernel

/-- An unknown byte, an error at the head of the queue, and an empty queue. -/
theorem witness_DiscCommands :
    (0x00#8).toNat ∉ [1, 2, 3, 6, 7, 8, 9, 0xA, 0xB, 0xC, 0xD, 0xE, 0xF, 0x10, 0x11, 0x13, 0x14, 0x15, 0x16, 0x19,
      0x1A, 0x1B, 0x1E] ∧
      ({ Cdc.reset with queue := [⟨3, .err 0x40⟩] }).queue = ⟨3, .err 0x40⟩ :: [] ∧ 3 ≤ 3 ∧
      Cdc.reset.iflag = 0 ∧ Cdc.reset.queue = [] := by decide

theorem witness_DiscWaitsForAcknowledge : ({ Cdc.reset with iflag := 3 }).iflag ≠ 0 := by decide

/-- The disc of these tests, ready to read sector 16. -/
theorem witness_ReadOrdering :
    let c := { inDrive.cdc with target := some 16, ien := 0x1F#5 }
    (∃ d sec, c.disc = some d ∧ d[16]? = some sec) ∧ c.target = some ((16 : Nat) : Int) ∧ c.queue = [] ∧
      c.iflag = 0 ∧ c.ien = 0x1F#5 ∧ c.dmode = .idle ∧ c.motor = true ∧ c.param = [] ∧ c.cmode = 0 :=
  ⟨⟨_, _, rfl, rfl⟩, rfl, rfl, rfl, rfl, rfl, rfl, rfl, rfl⟩

theorem witness_TimerPeriod : Timer.reset.count = 0 ∧ Timer.reset.mode.getLsbD 3 = false ∧
    ({ Timer.reset with mode := 8#13 }).mode.getLsbD 3 = true := by decide

/-- Four words from 0xC down, the least address that holds them; a count of 0. -/
theorem witness_OrderingTable :
    [4#32, 0#32].all (fun bcr =>
      let s := engine 6 0xC#24 bcr 0x11000002#32 start
      s.memoryCanonical && s.dma.active 6) = true := by decide +kernel

/-- A machine with `addu $3,$1,$2` at the pc. -/
def adding : State := start.placeWord 0x00221821#32

theorem witness_StepRunsDecoded :
    adding.halt = none ∧ adding.host.held = false ∧ adding.pc.toNat % 4 = 0 ∧
      plainAt (phys adding.pc) .word = true ∧
      decodeCpu (adding.wordAt (phys adding.pc).toNat) = .ok (.addu 3#5 1#5 2#5) :=
  ⟨rfl, rfl, by decide +kernel, by decide +kernel, by rfl⟩

/-- The stages after an exception, with and without an interrupt, with and without a load. -/
theorem witness_FinishStages :
    ({ start with stage := ⟨none, none, true, none, 0⟩ }).stage.excepted = true ∧
      (start.stage.excepted = false ∧ start.interruptPending = false) ∧
      ((irqs 0x401#32 4 4).stage.excepted = false ∧ (irqs 0x401#32 4 4).interruptPending = true) ∧
      (irqs 0x401#32 4 4).testedIrqs.interruptPending = true ∧
      ({ irqs 0x401#32 4 4 with stage := { Stage.idle with young := 4 } }).testedIrqs.interruptPending = false ∧
      (({ start with stage := ⟨some (2#5, 7#32), none, false, none, 0⟩ }).stage.dpl = some (2#5, 7#32) ∧
        start.params.collision = .loadWins ∧
        ({ start.params with collision := .laterWriteWins }).collision = .laterWriteWins) ∧
      start.stage.dpl = none ∧ (Instr.rfe).space = .cpu ∧ ∃ t, exec .rfe start = .next t :=
  ⟨by decide +kernel, by decide +kernel, by decide +kernel, by decide +kernel, by decide +kernel, by decide +kernel,
    by decide +kernel, by decide, goes_next (by decide +kernel)⟩

/-- With a load of `x2` posted. -/
theorem witness_LoadLandsOneStepLater :
    let s := { adding with pl := some (2#5, 7#32) }
    s.params.collision = .loadWins ∧ s.pl = some (2#5, 7#32) ∧ (2#5 : RegNum) ≠ 0 ∧
      ∃ t, step s = .next t :=
  ⟨rfl, rfl, by decide, goes_next (by decide +kernel)⟩

/-- A step that ends at the next word, and one that changes EPC. -/
theorem witness_PcAndSavedRegisters :
    (∃ t, step adding = .next t) ∧
      ∃ t, step (start.placeWord 0x0000000C#32) = .next t ∧
        t.cop0.epc ≠ (start.placeWord 0x0000000C#32).cop0.epc :=
  ⟨goes_next (by decide +kernel), by
    obtain ⟨t, h⟩ := goes_next (o := step (start.placeWord 0x0000000C#32)) (by decide +kernel)
    refine ⟨t, h, ?_⟩
    have e : seen (step (start.placeWord 0x0000000C#32)) (·.cop0.epc) = some 0x80010000#32 := by
      decide +kernel
    rw [h] at e
    have e : t.cop0.epc = 0x80010000#32 := Option.some.inj e
    rw [e]
    decide +kernel⟩

theorem witness_FetchAndDecodeFailures :
    (∃ e, decodeCpu 0x0000003F#32 = .error e) ∧ start.params.undecodable = .halt ∧
      ({ start.params with undecodable := .reservedInstruction }).undecodable = .reservedInstruction ∧
      ({ start with pc := 0x80012342#32 }).pc.toNat % 4 ≠ 0 :=
  ⟨⟨_, rfl⟩, rfl, rfl, by decide⟩

theorem witness_HoldAndHalt :
    ({ start with halt := some ⟨.busError, .bus, 0, 0⟩ }).halt ≠ none ∧
      (start.halt = none ∧ ({ HostSide.reset with held := true }).held = true) ∧
      start.pc ∈ ({ HostSide.reset with brk := [0x80010000#32] }).brk ∧ start.host.held = false := by decide +kernel

/-- A halting instruction; a halt in the slot for each clause: channel 3 without bytes, a word that halts, a unit left
awaiting, a unit left to be read, a list whose end leaves the unit awaiting. -/
theorem witness_HoldAndHalt_halts :
    let words := setRamWord 4 0xA0000000#32 (setRamWord 0 0x01FFFFFF#32 start)
    let ends (s : State) : Bool :=
      seen (processorStep (s.placeWord 0#32)) (fun t => (stop (dmaSlot t)).isSome) == some true
    (stop (processorStep (start.placeWord 0x0000003F#32))).isSome = true ∧
      [start.setDma ({ Dma.reset with dpcr := 0xFFFFFFFF#32 }.setChan 3 ⟨0, 1, 0x11000000#32⟩),
        engine 2 0#24 1#32 0x11000001#32 (setRamWord 0 0xFF000000#32 start),
        engine 2 4#24 1#32 0x11000001#32 words,
        (engine 2 0#24 1#32 0x11000000#32 start).setGpu (start.gpu.openTransfer .fromVram 0 0x00030003#32),
        engine 2 0#24 0#32 0x01000401#32 words].all ends = true := by decide +kernel

theorem witness_StepKeepsInvariant : adding.Inv ∧ ∃ t, step adding = .next t :=
  ⟨⟨by decide +kernel, by decide +kernel, by decide +kernel, by decide +kernel, by decide +kernel,
    by decide +kernel, by decide +kernel, by decide +kernel⟩, goes_next (by decide +kernel)⟩

/-- The premises of the four weaker statements about a step. -/
theorem witness_StepKeeps :
    (adding.memoryCanonical = true ∧ adding.zeroReg = true ∧ adding.interruptBits = true ∧
      adding.dmaBits = true) ∧ ∃ t, step adding = .next t :=
  ⟨by decide +kernel, goes_next (by decide +kernel)⟩

theorem witness_RoundTrip :
    (Instr.addi 1#5 2#5 0x8000#16).wf = true ∧ (Instr.addi 1#5 2#5 0x8000#16).space ≠ .gp0 ∧
      Instr.cdcReadN.wf = true ∧ Instr.cdcReadN.space ≠ .gp0 ∧
      (Instr.gp1Reset 5#24).wf = true ∧ (Instr.gp1Reset 5#24).space ≠ .gp0 ∧
      (Instr.gp0Line true false true false 0 [1, 2, 3]).wf = true ∧
      (Instr.gp0Line true false true false 0 [1, 2, 3]).space = .gp0 := by decide

theorem witness_DecodeIsExact : decodeCpu 0x0000000C#32 = .ok (.syscall 0) := by rfl

end Sys2Proof.Tests
end

/-!
PROOFS. The statements about the processor's state and its step (10_state.md). First what the bus, the instructions
and the device slots leave as they were; then the stages of a step; then the invariant; then halting and holding.
-/

namespace Sys2Proof.Machine

/-! ## Registers and reset -/

/-- What a register reads after a register write. -/
theorem reg_write {s t : State} {d : RegNum} {v : Word} (h : t.gpr = s.gprWith d v) (r : RegNum) :
    t.reg r = if r = d ∧ d ≠ 0 then v else s.reg r := by
  by_cases hr : r = d
  · subst hr
    by_cases hz : r = 0
    · subst hz; simp
    · rw [if_pos ⟨rfl, hz⟩, reg_write_same h hz]
  · simp [hr, reg_write_other h hr]

/-- Settles O4: both kinds of register write replace the file by the written one. -/
theorem registerWrites : Obligations.RegisterWrites := by
  intro s d r v
  refine ⟨rfl, reg_write rfl r, reg_write rfl r, changesOnly_setReg s d v, changesOnly_setGpr s d v, ?_⟩
  rintro rfl
  exact ⟨gprWith_zero s v, gprWith_zero s v⟩

/-- A stub latch that nothing has written reads 0. -/
theorem readByte_nil_of_isStub {a : Nat} (h : isStub a = true) : Memory.readByte [] a = 0 := by
  simp [Memory.readByte, Memory.known, Memory.unlisted, Cells.get?, h]

/-- Settles O2: the reset values as they stand, the timers and channels one by one, and the unwritten latches. -/
theorem resetDevices : Obligations.ResetDevices := by
  have timers : ∀ n, n < 3 → State.reset.timers.get n = ⟨0, 0, 0, false, false⟩ := by decide
  have channels : ∀ n, n < 7 → (State.reset.dma.chan n).madr = 0 ∧ (State.reset.dma.chan n).bcr = 0 ∧
      State.reset.dma.readChcr n = if n = 6 then 2#32 else 0 := by decide
  exact ⟨rfl, rfl, rfl, rfl, rfl, rfl, rfl, rfl, rfl, rfl, rfl, rfl, rfl, timers, rfl, channels, rfl, rfl, rfl, rfl,
    rfl, rfl, rfl, rfl, rfl, rfl, rfl, rfl, rfl, rfl, rfl, rfl, rfl, rfl, rfl, rfl, rfl, rfl, rfl, rfl, rfl, rfl,
    rfl, rfl, rfl, rfl, rfl, rfl, rfl, rfl, rfl, rfl, fun _ h => readByte_nil_of_isStub h⟩

/-- Settles O3: memory and VRAM list nothing after reset, and the rest is evaluated. -/
theorem resetInvariant : Obligations.ResetInvariant where
  settled := rfl
  zeroReg := rfl
  memory := rfl
  interrupts := rfl
  dma := rfl
  vram := rfl
  gpuMode := rfl
  disc := rfl

/-! ## Frames of the bus and of the device slots -/

theorem gpuRead_setGpu (s : State) : ∃ g, (gpuRead s).2 = s.setGpu g := by
  unfold gpuRead
  split
  · exact ⟨_, rfl⟩
  · exact ⟨s.gpu, rfl⟩

/-- Reading the graphics port moves the unit alone. -/
theorem changesOnly_gpuRead (s : State) : s.changesOnly [.gpu] (gpuRead s).2 := by
  obtain ⟨g, e⟩ := gpuRead_setGpu s
  rw [e]
  exact changesOnly_setGpu s g

/-- A word at the GP0 port touches the unit and I_STAT. -/
theorem changesOnly_submit {w : Word} {s t : State} (h : submitCommandWord w s = .next t) :
    s.changesOnly [.gpu, .intc] t := by
  obtain ⟨on, g, rfl, -, -⟩ := submit_next h
  exact changesOnly_trans (changesOnly_mono (changesOnly_raiseIrq s 1 on) (by simp))
    (changesOnly_mono (changesOnly_setGpu _ g) (by simp))

/-- A word that goes through at the GP1 port replaces the unit, VRAM kept and its mode still sound. -/
theorem runGp1_spec {w : Word} {s t : State} (h : runGp1 w s = .next t) :
    ∃ g, t = s.setGpu g ∧ (s.gpu.modeSound = true → g.modeSound = true) ∧ g.vram = s.gpu.vram := by
  obtain ⟨i, hi, hx⟩ := runGp1_next h
  obtain ⟨g, hg, hm, hv⟩ := exec_gp1 i s hi
  rw [hx] at hg
  exact ⟨g, Host.Outcome.next.inj hg, hm, hv⟩

/-- A word at the GP1 port touches the unit alone. -/
theorem changesOnly_runGp1 {w : Word} {s t : State} (h : runGp1 w s = .next t) : s.changesOnly [.gpu] t := by
  obtain ⟨g, rfl, -, -⟩ := runGp1_spec h
  exact changesOnly_setGpu s g

/-- A bus read touches timers, disc controller and graphics processor at most. -/
theorem changesOnly_busRead {pa v : Word} {n : Width} {s t : State} (h : busRead pa n s = .ok (v, t)) :
    s.changesOnly [.timers, .cdc, .gpu] t := by
  rcases busRead_cases h with rfl | ⟨k, off, rfl⟩ | ⟨off, rfl⟩ | rfl
  · exact changesOnly_refl _ _
  · exact changesOnly_mono (changesOnly_setTimers _ _) (by simp)
  · exact changesOnly_mono (changesOnly_setCdc _ _) (by simp)
  · exact changesOnly_mono (changesOnly_gpuRead _) (by simp)

theorem changesOnly_setHost (s : State) (h : HostSide) : s.changesOnly [.host] (s.setHost h) := by
  intro p hp; cases p <;> simp_all [State.sameOn, State.reg, State.byte]

/-- The text stream is the host's. -/
theorem changesOnly_ttyTap (pa : Word) (n : Width) (v : Word) (s : State) :
    s.changesOnly [.host] (ttyTap pa n v s) := by
  unfold ttyTap
  split
  · exact changesOnly_setHost _ _
  · exact changesOnly_refl _ _

/-- A bus write touches memory, devices and the text stream at most, nothing of the processor. -/
theorem changesOnly_busWrite {pa v : Word} {n : Width} {s t : State} (h : busWrite pa n v s = .next t) :
    s.changesOnly [.mem, .intc, .timers, .dma, .gpu, .cdc, .host] t := by
  have hm : s.changesOnly [.mem, .intc, .timers, .dma, .gpu, .cdc, .host] (storeWrite pa n v s) :=
    changesOnly_mono (changesOnly_setMem _ _) (by simp)
  rcases busWrite_cases h with rfl | rfl | rfl | rfl | ⟨o, rfl⟩ | ⟨i, o, rfl⟩ | ⟨o, h⟩ | h | h
  · exact hm
  · exact changesOnly_trans hm (changesOnly_mono (changesOnly_ttyTap _ _ _ _) (by simp))
  · exact changesOnly_mono (changesOnly_setIntc _ _) (by simp)
  · exact changesOnly_mono (changesOnly_setIntc _ _) (by simp)
  · exact changesOnly_mono (changesOnly_setDmaEdge _ _) (by simp)
  · exact changesOnly_mono (changesOnly_setTimers _ _) (by simp)
  · obtain ⟨c, hc, -⟩ := discWrite_spec o (v.extractLsb' 0 8) s
    rw [h] at hc
    cases hc
    exact changesOnly_mono (changesOnly_setCdc _ _) (by simp)
  · exact changesOnly_mono (changesOnly_submit h) (by simp)
  · exact changesOnly_mono (changesOnly_runGp1 h) (by simp)

theorem finishBlocks_setDma (n : Nat) (s : State) : ∃ d, finishBlocks n s = s.setDma d := by
  unfold finishBlocks
  simp only []
  split
  · exact ⟨_, rfl⟩
  · exact ⟨s.dma, rfl⟩

theorem changesOnly_finishBlocks (n : Nat) (s : State) : s.changesOnly [.dma] (finishBlocks n s) := by
  obtain ⟨d, e⟩ := finishBlocks_setDma n s
  rw [e]
  exact changesOnly_setDma s d

/-- What the engine's effects have touched, seen from the state they started in. -/
theorem dmaKeeps_changesOnly (s : State) : DmaKeeps (s.changesOnly [.mem, .intc, .gpu, .cdc, .dma]) where
  ram _ _ _ h := changesOnly_trans h (changesOnly_mono (changesOnly_setMem _ _) (by simp))
  submit _ _ _ h e := changesOnly_trans h (changesOnly_mono (changesOnly_submit e) (by simp))
  read _ h := changesOnly_trans h (changesOnly_mono (changesOnly_gpuRead _) (by simp))
  pop _ h := changesOnly_trans h (changesOnly_mono (changesOnly_setCdc _ _) (by simp))
  blocks _ _ h := changesOnly_trans h (changesOnly_mono (changesOnly_finishBlocks _ _) (by simp))
  complete _ _ _ h := changesOnly_trans h (changesOnly_mono (changesOnly_setDmaEdge _ _) (by simp))
  madr _ _ h := changesOnly_trans h (changesOnly_mono (changesOnly_setDma _ _) (by simp))

/-- The four device slots touch memory, the devices and the host's inputs, nothing of the processor. -/
theorem changesOnly_deviceSlots {s t : State} (h : dmaSlot s = .next t) :
    s.changesOnly [.mem, .intc, .timers, .dma, .gpu, .cdc, .host] (lateSlots t) :=
  changesOnly_trans (changesOnly_mono ((dmaKeeps_changesOnly s).slot (changesOnly_refl _ _) h) (by simp))
    (changesOnly_mono (lateSlots_changes t) (by simp))

/-! ## What an instruction does to the step record, the pc and the saved registers -/

/-- What step 1 took is the same at the end of execute, and so are the parameters. -/
structure State.sameLatches (s t : State) : Prop where
  dpl : t.stage.dpl = s.stage.dpl
  dpb : t.stage.dpb = s.stage.dpb
  young : t.stage.young = s.stage.young
  params : t.params = s.params

theorem State.sameLatches_of_changesOnly {ps : List Part} {s t : State} (h : s.changesOnly ps t)
    (hs : .stage ∉ ps) (hp : .params ∉ ps) : s.sameLatches t := by
  have e : t.stage = s.stage := h .stage hs
  exact ⟨by rw [e], by rw [e], by rw [e], h .params hp⟩

theorem State.sameLatches.trans {s t u : State} (h : s.sameLatches t) (k : t.sameLatches u) :
    s.sameLatches u :=
  ⟨k.dpl.trans h.dpl, k.dpb.trans h.dpb, k.young.trans h.young, k.params.trans h.params⟩

theorem sameLatches_busRead {pa v : Word} {n : Width} {s t : State} (h : busRead pa n s = .ok (v, t)) :
    s.sameLatches t := State.sameLatches_of_changesOnly (changesOnly_busRead h) (by simp) (by simp)

theorem sameLatches_busWrite {pa v : Word} {n : Width} {s t : State} (h : busWrite pa n v s = .next t) :
    s.sameLatches t := State.sameLatches_of_changesOnly (changesOnly_busWrite h) (by simp) (by simp)

/-- No instruction changes what step 1 took. -/
theorem Effect.sameLatches {s t : State} (h : Effect s t) : s.sameLatches t := by
  cases h with
  | same | wrote | hi | lo | pair | posted | branched | linked | cop0 | returned | gte =>
    exact ⟨rfl, rfl, rfl, rfl⟩
  | trapped _ _ _ _ h => cases h; exact ⟨rfl, rfl, rfl, rfl⟩
  | loaded _ _ _ _ _ _ h | gteLoaded _ _ _ _ h =>
    exact (sameLatches_busRead h).trans ⟨rfl, rfl, rfl, rfl⟩
  | stored _ _ _ _ h => exact sameLatches_busWrite h
  | merged _ _ _ _ _ h k => exact (sameLatches_busRead h).trans (sameLatches_busWrite k)

/-- Fetch, decode and execute leave what step 1 took. -/
theorem sameLatches_fetch_run {s t : State} (h : fetch s runWord = .next t) : s.sameLatches t := by
  rcases fetch_run_effect h with h | ⟨_, _, _, hr, hx⟩
  · exact h.sameLatches
  · exact (sameLatches_busRead hr).trans hx.sameLatches

/-- The vector is one of the two. -/
theorem vector_cases (s : State) : s.vector = 0xBFC00180#32 ∨ s.vector = 0x80000080#32 := by
  unfold State.vector
  split
  · exact .inl rfl
  · exact .inr rfl

/-- Two states agree on the pc, on whether an exception was entered, and on the two registers that an exception
saves. -/
structure State.sameSaved (s t : State) : Prop where
  excepted : t.stage.excepted = s.stage.excepted
  pc : t.pc = s.pc
  epc : t.cop0.epc = s.cop0.epc
  badVaddr : t.cop0.badVaddr = s.cop0.badVaddr

theorem State.sameSaved_of_changesOnly {ps : List Part} {s t : State} (h : s.changesOnly ps t)
    (hs : .stage ∉ ps) (hp : .pc ∉ ps) (hc : .cop0 ∉ ps) : s.sameSaved t := by
  have es : t.stage = s.stage := h .stage hs
  have ec : t.cop0 = s.cop0 := h .cop0 hc
  exact ⟨by rw [es], h .pc hp, by rw [ec], by rw [ec]⟩

theorem State.sameSaved.trans {s t u : State} (h : s.sameSaved t) (k : t.sameSaved u) : s.sameSaved u :=
  ⟨k.excepted.trans h.excepted, k.pc.trans h.pc, k.epc.trans h.epc, k.badVaddr.trans h.badVaddr⟩

theorem sameSaved_busRead {pa v : Word} {n : Width} {s t : State} (h : busRead pa n s = .ok (v, t)) :
    s.sameSaved t := State.sameSaved_of_changesOnly (changesOnly_busRead h) (by simp) (by simp) (by simp)

theorem sameSaved_busWrite {pa v : Word} {n : Width} {s t : State} (h : busWrite pa n v s = .next t) :
    s.sameSaved t := State.sameSaved_of_changesOnly (changesOnly_busWrite h) (by simp) (by simp) (by simp)

/-- MTC0 writes neither EPC nor BadVaddr (44_system_cop.md R284). -/
theorem writeCop0_saved {c d : Cop0} {n : RegNum} {v : Word} (h : State.writeCop0 c n v = some d) :
    d.epc = c.epc ∧ d.badVaddr = c.badVaddr := by
  unfold State.writeCop0 at h
  split at h <;> cases h <;> exact ⟨rfl, rfl⟩

/-- The instruction has entered an exception, the pc at a vector. -/
def State.atVector (t : State) : Prop :=
  t.stage.excepted = true ∧ (t.pc = 0xBFC00180#32 ∨ t.pc = 0x80000080#32)

/-- An instruction enters an exception, or leaves pc, EPC and BadVaddr alone. -/
theorem Effect.atVector_or_sameSaved {s t : State} (h : Effect s t) : t.atVector ∨ s.sameSaved t := by
  cases h with
  | same | wrote | hi | lo | pair | posted | branched | linked | returned | gte =>
    exact .inr ⟨rfl, rfl, rfl, rfl⟩
  | trapped _ _ _ _ h => cases h; exact .inl ⟨rfl, vector_cases s⟩
  | loaded _ _ _ _ _ _ h | gteLoaded _ _ _ _ h =>
    exact .inr ((sameSaved_busRead h).trans ⟨rfl, rfl, rfl, rfl⟩)
  | stored _ _ _ _ h => exact .inr (sameSaved_busWrite h)
  | merged _ _ _ _ _ h k => exact .inr ((sameSaved_busRead h).trans (sameSaved_busWrite k))
  | cop0 _ _ _ h =>
    obtain ⟨he, hb⟩ := writeCop0_saved h
    exact .inr ⟨rfl, rfl, he, hb⟩

theorem fetch_run_atVector_or_sameSaved {s t : State} (h : fetch s runWord = .next t) :
    t.atVector ∨ s.sameSaved t := by
  rcases fetch_run_effect h with h | ⟨_, _, _, hr, hx⟩
  · exact h.atVector_or_sameSaved
  · exact hx.atVector_or_sameSaved.imp_right (sameSaved_busRead hr).trans

/-! ## Steps 5 to 8 -/

theorem changesOnly_commitLoad (s : State) : s.changesOnly [.gpr] (commitLoad s) := by
  unfold commitLoad
  split
  · exact changesOnly_refl _ _
  · split
    · exact changesOnly_refl _ _
    · exact changesOnly_setGpr _ _ _

@[simp] theorem commitLoad_stage (t : State) : (commitLoad t).stage = t.stage :=
  changesOnly_commitLoad t .stage (by simp)
@[simp] theorem commitLoad_pc (t : State) : (commitLoad t).pc = t.pc := changesOnly_commitLoad t .pc (by simp)
@[simp] theorem commitLoad_pb (t : State) : (commitLoad t).pb = t.pb := changesOnly_commitLoad t .pb (by simp)
@[simp] theorem commitLoad_intc (t : State) : (commitLoad t).intc = t.intc :=
  changesOnly_commitLoad t .intc (by simp)
@[simp] theorem commitLoad_cop0 (t : State) : (commitLoad t).cop0 = t.cop0 :=
  changesOnly_commitLoad t .cop0 (by simp)

@[simp] theorem commitLoad_nextPc (t : State) : (commitLoad t).nextPc = t.nextPc := by simp [State.nextPc]

/-- The load commit changes nothing that step 7 tests. -/
@[simp] theorem commitLoad_pending (t : State) :
    (commitLoad t).testedIrqs.interruptPending = t.testedIrqs.interruptPending :=
  testedIrqs_pending_congr (commitLoad_stage t) (commitLoad_intc t) (commitLoad_cop0 t)

/-- After an exception nothing but the load commit follows. -/
theorem finish_excepted {t : State} (h : t.stage.excepted = true) :
    finish t = (commitLoad t).setStage .idle := by
  simp [finish, h]

/-- Without an exception and without an interrupt the pc moves on. -/
theorem finish_advances {t : State} (h : t.stage.excepted = false)
    (hi : t.testedIrqs.interruptPending = false) :
    finish t = ((commitLoad t).setPc t.nextPc).setStage .idle := by
  simp [finish, advance, h, hi]

/-- A pending interrupt is entered, EPC at the branch whose delay slot would be next, else at the next
instruction. -/
theorem finish_interrupts {t : State} (h : t.stage.excepted = false)
    (hi : t.testedIrqs.interruptPending = true) :
    finish t = (enterException .int (if t.pb.isSome then t.pc else t.nextPc) t.pb.isSome
      (commitLoad t)).setStage .idle := by
  simp [finish, advance, h, hi]

/-- After the load commit no stage writes a register. -/
theorem finish_gpr (t : State) : (finish t).gpr = (commitLoad t).gpr := by
  simp only [finish, advance]
  split
  · rfl
  · split <;> rfl

/-- With load_wins the latched load lands whatever the instruction did (R42). -/
theorem commitLoad_gpr_loadWins {t : State} {r : RegNum} {v : Word} (h : t.stage.dpl = some (r, v))
    (hc : t.params.collision = .loadWins) : (commitLoad t).gpr = t.gprWith r v := by
  simp [commitLoad, h, hc]

/-- With later_write_wins the load lands unless the instruction wrote its register or posted a load of it (R42 (d)). -/
theorem commitLoad_gpr_laterWriteWins {t : State} {r : RegNum} {v : Word} (h : t.stage.dpl = some (r, v))
    (hc : t.params.collision = .laterWriteWins) :
    (commitLoad t).gpr =
      if t.stage.wrote = some r ∨ t.pl.map Prod.fst = some r then t.gpr else t.gprWith r v := by
  simp only [commitLoad, h, hc, true_and, State.rewrote, Bool.or_eq_true, beq_iff_eq]
  split
  · rfl
  · rfl

/-! ## Steps as a whole -/

/-- Settles O49: neither the instruction nor its trap touches the latch, the commit writes the register, and the
device slots have no access to it. -/
theorem loadLandsOneStepLater : Obligations.LoadLandsOneStepLater := by
  intro s t r v hc hl hr h
  obtain ⟨-, -, u, w, hf, hd, rfl⟩ := step_next h
  have hu := sameLatches_fetch_run hf
  have hland : (commitLoad u).gpr = u.gprWith r v :=
    commitLoad_gpr_loadWins (hu.dpl.trans hl) (by rw [hu.params]; exact hc)
  have hlate := changesOnly_deviceSlots hd .gpr (by simp)
  exact (hlate.2 r).trans (reg_write_same ((finish_gpr u).trans hland) hr)

/-- The pc after a step: at a vector, or moved on with EPC and BadVaddr as they were. -/
theorem finish_pc {s u : State} (hs : s.stage.excepted = false) (h : u.atVector ∨ s.sameSaved u) :
    ((finish u).pc = 0xBFC00180#32 ∨ (finish u).pc = 0x80000080#32) ∨
      ((finish u).pc = u.stage.dpb.getD (s.pc + 4#32) ∧ (finish u).cop0.epc = s.cop0.epc ∧
        (finish u).cop0.badVaddr = s.cop0.badVaddr) := by
  rcases h with ⟨hx, hv⟩ | ⟨hx, epc, eepc, ebad⟩
  · left
    rw [finish_excepted hx]
    simpa using hv
  · rw [hs] at hx
    cases hi : u.testedIrqs.interruptPending with
    | true => left; rw [finish_interrupts hx hi]; exact vector_cases _
    | false =>
      right
      rw [finish_advances hx hi]
      simp [State.nextPc, epc, eepc, ebad]

/-- One step of the machine, seen from pc, EPC and BadVaddr. -/
theorem step_pc {s t : State} (h : step s = .next t) :
    (t.pc = 0xBFC00180#32 ∨ t.pc = 0x80000080#32) ∨
      (t.pc = s.pb.getD (s.pc + 4#32) ∧ t.cop0.epc = s.cop0.epc ∧ t.cop0.badVaddr = s.cop0.badVaddr) := by
  obtain ⟨-, -, u, w, hf, hd, rfl⟩ := step_next h
  have hlate := changesOnly_deviceSlots hd
  have hpc : (lateSlots w).pc = (finish u).pc := hlate .pc (by simp)
  have hcop : (lateSlots w).cop0 = (finish u).cop0 := hlate .cop0 (by simp)
  have hdpb : u.stage.dpb = s.pb := (sameLatches_fetch_run hf).dpb
  have hfin := finish_pc rfl (fetch_run_atVector_or_sameSaved hf)
  rwa [hdpb, ← hpc, ← hcop] at hfin

/-- Settles O50, from what a step does to pc, EPC and BadVaddr. -/
theorem pcAndSavedRegisters : Obligations.PcAndSavedRegisters := by
  constructor
  · intro s t h
    rcases step_pc h with hv | ⟨hpc, -, -⟩
    · exact .inr hv
    · exact .inl hpc
  · intro s t h hne
    rcases step_pc h with hv | ⟨-, he, hb⟩
    · exact hv
    · exact absurd hne (by simp [he, hb])

/-- Settles O48, stage by stage. -/
theorem finishStages : Obligations.FinishStages := by
  refine ⟨fun s => rfl, fun i s t hi hx => (exec_effect hi hx).sameLatches.young, fun t => ?_⟩
  refine ⟨rfl, fun hx => ?_, fun hx hi => ?_, fun hx hi => ?_, fun r v hl hc => ?_,
    fun r v hl hc => ?_, fun hl => ?_, ?_, finish_changes t⟩
  · rw [finish_excepted hx]
    simp
  · rw [finish_advances hx hi]
    simp [State.nextPc]
  · obtain ⟨hlow, hhigh⟩ := pushSr_fields t.cop0.sr
    obtain ⟨hcode, hbd, hce, hrest⟩ := entryCause_fields t.cop0.cause Exc.int.code t.pb.isSome
    rw [finish_interrupts hx hi]
    simp only [State.setStage_cop0, State.setStage_pc, State.setStage_pb, enterException_cop0, enterException_pc,
      enterException_pb, commitLoad_cop0]
    exact ⟨hlow, hhigh, rfl, hce, hrest, by simp [State.vector, State.bev, Config.vecRom, Config.vecRam], trivial,
      hbd, hcode, rfl⟩
  · exact (finish_gpr t).trans (commitLoad_gpr_loadWins hl hc)
  · exact (finish_gpr t).trans (commitLoad_gpr_laterWriteWins hl hc)
  · rw [finish_gpr, commitLoad, hl]
  · exact finish_changes t .pl (by simp)

/-- Settles O47: an aligned fetch from plain memory reads the word at the pc and changes nothing. -/
theorem stepRunsDecoded : Obligations.StepRunsDecoded := by
  intro i s hh hheld hpc hplain hdec
  have hread : busRead (phys s.latch.pc) .word s.latch = .ok (s.wordAt (phys s.pc).toNat, s.latch) :=
    busRead_plain hplain
  have hfetch : fetch s.latch runWord = exec i s.latch := by
    have hal : misaligned s.latch.pc .word = false := by simp [misaligned_word, hpc]
    rw [fetch, hal, if_neg Bool.false_ne_true, withRead_ok hread, runWord, hdec]
  simp [step, hh, hheld, invocation, processorStep, hfetch]

/-- Settles O51: the exceptions are entered as `raise` and `raiseAt` enter them. -/
theorem fetchAndDecodeFailures : Obligations.FetchAndDecodeFailures := by
  refine ⟨fun w e s hw => ⟨fun hp => ?_, fun hp => ?_⟩, fun s k hpc => ?_⟩
  · refine ⟨undecodableComponent w, by simp [runWord, hw, undecodable, hp], ?_⟩
    unfold undecodableComponent
    split
    · exact .inr rfl
    · exact .inl rfl
  · have hrun : runWord w s = raise .ri s := by simp [runWord, hw, undecodable, hp]
    rw [hrun]
    exact raise_entered .ri s
  · have hfetch : fetch s k = raiseAt (.adEL s.pc) s.pc false s := by simp [fetch, misaligned_word, hpc]
    rw [hfetch]
    exact raiseAt_entered _ _ _ _

/-! ## The parts of the invariant under the updates that reach them -/

/-- A register write never reaches the stored register 0. -/
theorem gprWith_getElem_zero (s : State) (r : RegNum) (v : Word) : (s.gprWith r v)[0] = s.gpr[0] := by
  unfold State.gprWith
  split
  · rfl
  · rename_i h
    have hne : r.toNat ≠ 0 := fun e => h (BitVec.eq_of_toNat_eq e)
    exact Vector.getElem_set_ne r.isLt (by decide) hne

theorem and_mask_eq_zero {n : Nat} {x m : BitVec n} (h : x &&& m = 0) (y : BitVec n) : (x &&& y) &&& m = 0 := by
  rw [BitVec.and_assoc, BitVec.and_comm y, ← BitVec.and_assoc, h]
  simp

theorem or_mask_eq_zero {n : Nat} {x y m : BitVec n} (hx : x &&& m = 0) (hy : y &&& m = 0) :
    (x ||| y) &&& m = 0 := by
  rw [BitVec.and_or_distrib_right, hx, hy]
  simp

/-- The bits of CAUSE that are not stored read 0 (10_state.md R30). -/
def Cop0.causeOk (c : Cop0) : Prop := c.cause &&& ~~~0x8000037C#32 = 0

/-- The I_STAT bits without a source read 0 (60_exceptions.md R623). -/
def Intc.istatOk (c : Intc) : Prop := c.istat &&& 0x780#11 = 0

theorem interruptBits_iff (s : State) : s.interruptBits = true ↔ s.cop0.causeOk ∧ s.intc.istatOk := by
  simp [State.interruptBits, Cop0.causeOk, Intc.istatOk]

/-- The fields written at entry, ExcCode and BD, are stored ones. -/
theorem causeOk_enterException {e : Exc} {epc : Word} {bd : Bool} {s : State} (h : s.cop0.causeOk) :
    (enterException e epc bd s).cop0.causeOk := by
  have hcode : ∀ code : BitVec 5, (code.setWidth 32 <<< 2) &&& ~~~0x8000037C#32 = 0 := by decide
  have hbd : ∀ b : Bool, ((BitVec.ofBool b).setWidth 32 <<< 31) &&& ~~~0x8000037C#32 = 0 := by decide
  exact or_mask_eq_zero (or_mask_eq_zero (and_mask_eq_zero h _) (hcode _)) (hbd _)

/-- MTC0 reaches the software bits of CAUSE alone (44_system_cop.md R284). -/
theorem causeOk_writeCop0 {c d : Cop0} {n : RegNum} {v : Word} (h : State.writeCop0 c n v = some d)
    (hc : c.causeOk) : d.causeOk := by
  have hv : (v &&& 0x300#32) &&& ~~~0x8000037C#32 = 0 := by rw [BitVec.and_assoc]; simp
  unfold State.writeCop0 at h
  split at h <;> cases h
  on_goal 8 => exact or_mask_eq_zero (and_mask_eq_zero hc _) hv
  all_goals exact hc

theorem istatOk_raiseIrq {s : State} {n : Nat} (on : Bool) (hn : n < 7) (h : s.intc.istatOk) :
    (s.raiseIrq n on).intc.istatOk := by
  refine or_mask_eq_zero h ?_
  interval_cases n <;> cases on <;> rfl

/-- Clearing START and TRIG and setting the channel's flag stays within the stored bits. -/
theorem bitsOk_complete {n : Nat} {s : State} (hn : n < 7) (h : s.dma.bitsOk) : (complete n s).dma.bitsOk := by
  have hchan := bitsOk_setChan (c := { s.dma.chan n with chcr := (s.dma.chan n).chcr &&& ~~~0x11000000#32 }) h
    fun hn => and_mask_eq_zero (h.1 n hn) _
  have hflag : bitWord (24 + n) true &&& ~~~0x7FFF803F#32 = 0 := by interval_cases n <;> rfl
  refine ⟨hchan.1, ?_⟩
  show (if _ then _ else _) &&& _ = _
  split
  · exact or_mask_eq_zero h.2 hflag
  · exact h.2

theorem bitsOk_finishBlocks {n : Nat} {s : State} (h : s.dma.bitsOk) : (finishBlocks n s).dma.bitsOk := by
  unfold finishBlocks
  simp only []
  split
  · exact bitsOk_setChan h (h.1 n)
  · exact h

theorem bitsOk_writeReg {d : Dma} (off : Nat) (v : Word) (h : d.bitsOk) : (d.writeReg off v).bitsOk := by
  have hmask : ∀ w m : Word, (w &&& m) &&& ~~~m = 0 := fun w m => by rw [BitVec.and_assoc]; simp
  unfold Dma.writeReg
  split
  · exact h
  · split
    · exact ⟨h.1, or_mask_eq_zero (by rw [BitVec.and_assoc]; simp) (by rw [BitVec.and_assoc]; simp)⟩
    · simp only []
      split
      · exact bitsOk_setChan h (h.1 _)
      · exact bitsOk_setChan h (h.1 _)
      · exact bitsOk_setChan h fun _ => hmask _ _

/-- The command machine and VRAM are sound: what has to hold of the graphics processor. -/
def Gpu.sound (g : Gpu) : Prop := g.modeSound = true ∧ g.vramOk

theorem sound_submit {w : Word} {s t : State} (h : submitCommandWord w s = .next t) (hs : s.gpu.sound) :
    t.gpu.sound := by
  obtain ⟨on, g, rfl, hm, hv⟩ := submit_next h
  exact ⟨hm hs.1, hv hs.1 hs.2⟩

theorem sound_gpuRead {s : State} (hs : s.gpu.sound) : (gpuRead s).2.gpu.sound := by
  obtain ⟨hm, hv⟩ := hs
  unfold gpuRead
  split
  · rename_i hfrom
    have htr : s.gpu.transferring = true := by simpa [Gpu.modeSound, hfrom] using hm
    obtain ⟨hsm, hsv⟩ := send_sound hfrom htr
    exact ⟨hsm, by rw [Gpu.vramOk, State.setGpu_gpu, hsv]; exact hv⟩
  · exact ⟨hm, hv⟩

theorem sound_runGp1 {w : Word} {s t : State} (h : runGp1 w s = .next t) (hs : s.gpu.sound) : t.gpu.sound := by
  obtain ⟨g, rfl, hm, hv⟩ := runGp1_spec h
  exact ⟨hm hs.1, by rw [Gpu.vramOk, State.setGpu_gpu, hv]; exact hs.2⟩

/-! ## The parts together -/

/-- What was sound in `s` is sound in `t`, part by part. -/
structure State.keepsSound (s t : State) : Prop where
  zero : s.gpr[0] = 0 → t.gpr[0] = 0
  memory : Memory.wf s.mem = true → Memory.wf t.mem = true
  cause : s.cop0.causeOk → t.cop0.causeOk
  istat : s.intc.istatOk → t.intc.istatOk
  dma : s.dma.bitsOk → t.dma.bitsOk
  gpu : s.gpu.sound → t.gpu.sound
  disc : s.cdc.keeps t.cdc

theorem State.keepsSound_refl (s : State) : s.keepsSound s := ⟨id, id, id, id, id, id, Cdc.keeps_refl _⟩

theorem dmaKeeps_keepsSound (s : State) : DmaKeeps s.keepsSound where
  ram _ _ _ h := { h with memory := fun m => Memory.wf_write (ramIndex _) .word _ (h.memory m) }
  submit _ t u h e := by
    obtain ⟨on, g, rfl, -, -⟩ := submit_next e
    exact { h with
      istat := fun i => istatOk_raiseIrq on (by decide) (h.istat i)
      gpu := fun g => sound_submit e (h.gpu g) }
  read t h := by
    have hs := fun g => sound_gpuRead (h.gpu g)
    obtain ⟨g, e⟩ := gpuRead_setGpu t
    rw [e] at hs ⊢
    exact { h with gpu := hs }
  pop t h := { h with disc := Cdc.keeps_trans h.disc (Cdc.keeps_popWord _) }
  blocks n t h := by
    have hs := fun d => bitsOk_finishBlocks (n := n) (h.dma d)
    obtain ⟨d, e⟩ := finishBlocks_setDma n t
    rw [e] at hs ⊢
    exact { h with dma := hs }
  complete n t hn h := { h with
    istat := fun i => istatOk_raiseIrq _ (by decide) (h.istat i)
    dma := fun d => bitsOk_complete hn (h.dma d) }
  madr t v h := { h with dma := fun d => bitsOk_setChan (h.dma d) ((h.dma d).1 2) }

/-- What every primitive effect of a step keeps: each leaves all parts alone but those named. -/
theorem stepKeeps_keepsSound (s : State) : StepKeeps s.keepsSound where
  engine := dmaKeeps_keepsSound s
  latched _ h := { h with }
  staged _ _ h := { h with }
  wrote _ _ _ h := { h with zero := fun z => (gprWith_getElem_zero _ _ _).trans (h.zero z) }
  landed _ _ _ h := { h with zero := fun z => (gprWith_getElem_zero _ _ _).trans (h.zero z) }
  hi _ _ h := { h with }
  lo _ _ h := { h with }
  pc _ _ h := { h with }
  posted _ _ _ h := { h with }
  branched _ _ h := { h with }
  entered _ _ _ _ h := { h with cause := fun c => causeOk_enterException (h.cause c) }
  cop0 _ _ _ _ e h := { h with cause := fun c => causeOk_writeCop0 e (h.cause c) }
  returned _ h := { h with }
  gte _ _ h := { h with }
  mem _ _ _ _ h := { h with memory := fun m => Memory.wf_write _ _ _ (h.memory m) }
  irq _ _ on hn h := { h with istat := fun i => istatOk_raiseIrq on hn (h.istat i) }
  acked _ _ h := { h with istat := fun i => and_mask_eq_zero (h.istat i) _ }
  masked _ _ h := { h with }
  dmaReg _ off v h := { h with
    istat := fun i => istatOk_raiseIrq _ (by decide) (h.istat i)
    dma := fun d => bitsOk_writeReg off v (h.dma d) }
  timers _ _ h := { h with }
  cdc _ _ k h := { h with disc := Cdc.keeps_trans h.disc k }
  gp1 _ t u h e := by
    obtain ⟨g, rfl, -, -⟩ := runGp1_spec e
    exact { h with gpu := fun g => sound_runGp1 e (h.gpu g) }
  blank b _ h := { h with
    istat := fun i => istatOk_raiseIrq b (by decide) (h.istat i)
    gpu := h.gpu }
  host _ _ _ _ _ h := { h with }

theorem step_keepsSound {s t : State} (h : step s = .next t) : s.keepsSound t :=
  (stepKeeps_keepsSound s).step s.keepsSound_refl h

/-- Settles O55, from the parts that every step keeps. -/
theorem stepKeepsReservedBits : Obligations.StepKeepsReservedBits := by
  intro s t h
  have k := step_keepsSound h
  refine ⟨fun hz => ?_, fun hi => ?_, fun hd => ?_⟩
  · simpa [State.zeroReg] using k.zero (by simpa [State.zeroReg] using hz)
  · obtain ⟨hc, hi⟩ := (interruptBits_iff s).mp hi
    exact (interruptBits_iff t).mpr ⟨k.cause hc, k.istat hi⟩
  · exact (dmaBits_iff t).mpr (k.dma ((dmaBits_iff s).mp hd))

/-- After the last stage of a processor step the record is idle, and no device slot reaches it. -/
theorem step_settled {s t : State} (h : step s = .next t) : t.settled = true := by
  obtain ⟨-, -, u, w, -, hd, rfl⟩ := step_next h
  have hs : (lateSlots w).stage = (finish u).stage := changesOnly_deviceSlots hd .stage (by simp)
  rw [State.settled, hs]
  rfl

/-- Settles O56: the step record is idle, and every other part is kept. -/
theorem stepKeepsInvariant : Obligations.StepKeepsInvariant := by
  intro s t inv h
  have k := step_keepsSound h
  obtain ⟨hzero, hints, hdma⟩ := stepKeepsReservedBits s t h
  have hgpu := k.gpu ⟨inv.gpuMode, (vramCanonical_iff s).mp inv.vram⟩
  exact
    { settled := step_settled h
      zeroReg := hzero inv.zeroReg
      memory := k.memory inv.memory
      interrupts := hints inv.interrupts
      dma := hdma inv.dma
      vram := (vramCanonical_iff t).mpr hgpu.2
      gpuMode := hgpu.1
      disc := k.disc.2 inv.disc }

/-! ## Which faults the engine's channels raise -/

/-- A desync halt names the engine, so the graphics processor is left as the words that landed left it. -/
theorem desync_component {n : Nat} {s : State} {e : Fault} (h : desync n s = .fault e) :
    e.record.map (·.component) ≠ some .graphics := by
  cases h
  simp [Fault.record]

theorem andThen_fault {o : Out} {f : State → Out} {e : Fault} :
    andThen o f = .fault e ↔ o = .fault e ∨ ∃ u, o = .next u ∧ f u = .fault e := by
  cases o <;> simp [andThen]

/-- A loop none of whose rounds faults does not fault. -/
theorem repeatOut_ne_fault {f : Nat → State → Out} (hf : ∀ k u e, f k u ≠ .fault e) (n : Nat) (s : State)
    (e : Fault) : repeatOut n f s ≠ .fault e := by
  intro h
  obtain ⟨k, t, -, -, hk⟩ := repeatOut_eq_fault h
  exact hf k t e hk

theorem endGpuTransfer_fault {s : State} {e : Fault} (h : endGpuTransfer s = .fault e) : desync 2 s = .fault e := by
  unfold endGpuTransfer at h
  split at h
  · cases h
  · exact h

theorem clearTable_ne_fault (s : State) (e : Fault) : clearTable s ≠ .fault e := by
  intro h
  rcases andThen_fault.mp h with h | ⟨u, -, h⟩
  · exact repeatOut_ne_fault (fun _ _ _ h => by cases h) _ _ _ h
  · cases h

theorem discBlocks_fault {s : State} {e : Fault} (h : discBlocks s = .fault e) : desync 3 s = .fault e := by
  unfold discBlocks at h
  simp only [] at h
  split at h
  · exact h
  · rcases andThen_fault.mp h with h | ⟨u, -, h⟩
    · exact absurd h (repeatOut_ne_fault (fun _ _ _ h => by cases h) _ _ _)
    · cases h

/-- A channel other than 2 halts before it has moved a word. -/
theorem transfer_fault_other {n : Nat} {s : State} {e : Fault} (hn : n ≠ 2) (h : transfer n s = .fault e) :
    desync n s = .fault e ∧ transferLast n s = s := by
  constructor
  · unfold transfer at h
    simp only [] at h
    split at h
    · exact absurd h (clearTable_ne_fault s e)
    · exact absurd rfl hn
    · exact absurd rfl hn
    · exact absurd rfl hn
    · exact discBlocks_fault h
    · exact discBlocks_fault h
    · exact h
  · unfold transferLast
    simp only []
    split
    · exact absurd rfl hn
    · exact absurd rfl hn
    · exact absurd rfl hn
    · rfl

/-! ## Channel 2, by its SYNC field -/

theorem transfer_two_blocks {s : State} (h : (s.dma.chan 2).sync < 2) : transfer 2 s = gpuBlocks s := by
  have : (s.dma.chan 2).sync = 0 ∨ (s.dma.chan 2).sync = 1 := by omega
  rcases this with h | h <;> simp [transfer, h]

theorem transfer_two_list {s : State} (h : (s.dma.chan 2).sync = 2) (ho : (s.dma.chan 2).toDevice = true) :
    transfer 2 s = gpuList s := by simp [transfer, h, ho]

theorem transferLast_two_blocks {s : State} (h : (s.dma.chan 2).sync < 2) :
    transferLast 2 s =
      if (s.dma.chan 2).toDevice then repeatLast (s.dma.chan 2).total (wordToGpu (s.dma.chan 2)) s
      else if s.gpu.mode = .fromVram then repeatLast (s.dma.chan 2).total (wordFromGpu (s.dma.chan 2)) s
      else s := by
  have : (s.dma.chan 2).sync = 0 ∨ (s.dma.chan 2).sync = 1 := by omega
  rcases this with h | h <;> simp [transferLast, h]

theorem transferLast_two_toGpu {s : State} (h : (s.dma.chan 2).sync < 2) (ho : (s.dma.chan 2).toDevice = true) :
    transferLast 2 s = repeatLast (s.dma.chan 2).total (wordToGpu (s.dma.chan 2)) s := by
  rw [transferLast_two_blocks h, if_pos ho]

theorem transferLast_two_fromGpu {s : State} (h : (s.dma.chan 2).sync < 2)
    (ho : (s.dma.chan 2).toDevice = false) (hm : s.gpu.mode = .fromVram) :
    transferLast 2 s = repeatLast (s.dma.chan 2).total (wordFromGpu (s.dma.chan 2)) s := by
  simp [transferLast_two_blocks h, ho, hm]

theorem transferLast_two_list {s : State} (h : (s.dma.chan 2).sync = 2) (ho : (s.dma.chan 2).toDevice = true) :
    transferLast 2 s = listLast s.params.llCap ((s.dma.chan 2).madr.setWidth 32) s := by
  simp [transferLast, h, ho]

/-- The forms of channel 2 that halt before they move a word. -/
theorem transfer_two_refused {s : State} {e : Fault}
    (hc : (s.dma.chan 2).sync = 3 ∨ ((s.dma.chan 2).sync = 2 ∧ (s.dma.chan 2).toDevice = false) ∨
      ((s.dma.chan 2).sync < 2 ∧ (s.dma.chan 2).toDevice = false ∧ s.gpu.mode ≠ .fromVram))
    (h : transfer 2 s = .fault e) : desync 2 s = .fault e ∧ transferLast 2 s = s := by
  rcases hc with hs | ⟨hs, ho⟩ | ⟨hs, ho, hm⟩
  · simpa [transfer, transferLast, hs] using h
  · simpa [transfer, transferLast, hs, ho] using h
  · rw [transfer_two_blocks hs] at h
    rw [transferLast_two_blocks hs]
    simpa [gpuBlocks, ho, hm] using h

theorem dmaChannel_fault {n : Nat} {s : State} {e : Fault} (h : dmaChannel n s = .fault e) :
    transfer n s = .fault e := by
  unfold dmaChannel at h
  split at h
  · exact h
  · cases h

/-! ## What the words of a halting transfer have touched -/

/-- What a word at the GP0 port keeps, the words of a linked list keep. -/
theorem listLast_keeps {P : State → Prop} (hP : ∀ w s t, P s → submitCommandWord w s = .next t → P t)
    {fuel : Nat} {a : Word} {s : State} (hs : P s) : P (listLast fuel a s) := by
  induction fuel generalizing a s with
  | zero => exact hs
  | succ fuel ih =>
    simp only [listLast]
    split
    · rename_i u hu
      have hp := repeatOut_keeps (fun j u v _ pu hv => hP _ _ _ pu hv) hs hu
      split
      · exact hp
      · exact ih hp
    · exact repeatLast_keeps (fun j u v _ pu hv => hP _ _ _ pu hv) hs

/-- The words of a halting transfer leave the engine's registers alone. -/
theorem transferLast_dma (n : Nat) (s : State) : (transferLast n s).dma = s.dma := by
  have submit : ∀ w t u, t.dma = s.dma → submitCommandWord w t = .next u → u.dma = s.dma :=
    fun _ _ _ ht e => (changesOnly_submit e .dma (by simp)).trans ht
  have read : ∀ c j t u, t.dma = s.dma → wordFromGpu c j t = .next u → u.dma = s.dma := fun _ _ t _ ht e => by
    cases e
    exact (changesOnly_gpuRead t .dma (by simp)).trans ht
  have blocks : (if (s.dma.chan 2).toDevice then repeatLast (s.dma.chan 2).total (wordToGpu (s.dma.chan 2)) s
      else if s.gpu.mode = .fromVram then repeatLast (s.dma.chan 2).total (wordFromGpu (s.dma.chan 2)) s
      else s).dma = s.dma := by
    split
    · exact repeatLast_keeps (P := fun t => t.dma = s.dma) (fun _ _ _ _ => submit _ _ _) rfl
    · split
      · exact repeatLast_keeps (P := fun t => t.dma = s.dma) (fun _ _ _ _ => read _ _ _ _) rfl
      · rfl
  unfold transferLast
  simp only []
  split
  · exact blocks
  · exact blocks
  · split
    · exact listLast_keeps (P := fun t => t.dma = s.dma) submit rfl
    · rfl
  · rfl

/-! ## The state the host finds -/

theorem changesOnly_setHalt (s : State) (h : Option HaltRecord) : s.changesOnly [.halt] (s.setHalt h) := by
  intro p hp; cases p <;> simp_all [State.sameOn, State.reg, State.byte]

/-- After a halt in the slot only the halting device is left in any state. -/
theorem changesOnly_halted (e : Fault) (s : State) :
    (slotLast 7 s).changesOnly
      (if e.record.map (·.component) = some .graphics then [.dma, .gpu, .halt] else [.dma, .halt])
      ((haltedSlot e s).setHalt e.record) := by
  refine changesOnly_trans (changesOnly_mono (haltedSlot_changes e s) ?_)
    (changesOnly_mono (changesOnly_setHalt _ _) ?_)
  · split <;> simp
  · split <;> simp

theorem changesOnly_halted_any (e : Fault) (s : State) :
    (slotLast 7 s).changesOnly [.dma, .gpu, .halt] ((haltedSlot e s).setHalt e.record) := by
  refine changesOnly_mono (changesOnly_halted e s) ?_
  split <;> simp

/-- Where the halt is not the graphics port's, of the devices only the engine is. -/
theorem changesOnly_halted_engine {e : Fault} (s : State) (h : e.record.map (·.component) ≠ some .graphics) :
    (slotLast 7 s).changesOnly [.dma, .halt] ((haltedSlot e s).setHalt e.record) := by
  simpa only [if_neg h] using changesOnly_halted e s

/-- What the host finds after a halt in the engine's slot. -/
theorem observed_slot_halt {s t : State} {e : Fault} (hp : processorStep s = .next t) (hd : dmaSlot t = .fault e) :
    observed s = (haltedSlot e t).setHalt e.record := by simp [observed, hp, hd]

/-- All that such a halt can have touched since the processor's step. -/
theorem changesOnly_slot_halt (e : Fault) (t : State) :
    t.changesOnly [.mem, .intc, .gpu, .cdc, .dma, .halt] ((haltedSlot e t).setHalt e.record) :=
  changesOnly_trans (changesOnly_mono ((dmaKeeps_changesOnly t).slotLast (changesOnly_refl _ _)) (by simp))
    (changesOnly_mono (changesOnly_halted_any e t) (by simp))

/-! ## Holding -/

theorem continueFrom_held (n : Nat) (s : State) : (continueFrom n s).host.held = true := by
  induction n generalizing s with
  | zero => rfl
  | succ n ih =>
    unfold continueFrom
    split
    · rfl
    · exact ih _

theorem hostContinue_held (n : Nat) (s : State) : (hostContinue n s).host.held = true := by
  unfold hostContinue
  split
  · rfl
  · split
    · rfl
    · exact continueFrom_held _ _

/-- A halt of R575 leaves START of channel 2 set. -/
theorem slot_halt_start {t u : State} {e : Fault} {w : Word} (hl : slotLast 7 t = transferLast 2 u)
    (he : e = .dmaDesyncError .dma 0x1F8010A8#32 w)
    (hs : (u.dma.chan 2).sync < 3) (ho : (u.dma.chan 2).sync = 2 → (u.dma.chan 2).toDevice = true) :
    (((haltedSlot e t).setHalt e.record).dma.chan 2).chcr.getLsbD 24 = true := by
  have hdma : ((haltedSlot e t).setHalt e.record).dma = haltedEngine e (slotLast 7 t) := by
    simp only [haltedSlot]
    split <;> rfl
  rw [hdma]
  apply haltedEngine_start
  have hsync : (u.dma.chan 2).sync = 0 ∨ (u.dma.chan 2).sync = 1 ∨ (u.dma.chan 2).sync = 2 := by omega
  subst he
  simp only [endsUnready, hl, transferLast_dma]
  rcases hsync with h | h | h <;> simp [h, ho, Fault.record, chcrAddress]

/-- A block transfer of channel 2 whose words all went through halts at its end, as a desync. -/
theorem gpuBlocks_fault_end {s v : State} {e : Fault} (h : gpuBlocks s = .fault e)
    (hv : ((s.dma.chan 2).toDevice = true ∧
        repeatOut (s.dma.chan 2).total (wordToGpu (s.dma.chan 2)) s = .next v) ∨
      ((s.dma.chan 2).toDevice = false ∧ s.gpu.mode = .fromVram ∧
        repeatOut (s.dma.chan 2).total (wordFromGpu (s.dma.chan 2)) s = .next v)) :
    desync 2 v = .fault e := by
  rcases hv with ⟨ho, hv⟩ | ⟨ho, hm, hv⟩
  · exact endGpuTransfer_fault (by simpa [gpuBlocks, ho, hv, andThen] using h)
  · exact endGpuTransfer_fault (by simpa [gpuBlocks, ho, hm, hv, andThen] using h)

/-- A linked list that went through halts at its end, as a desync. -/
theorem gpuList_fault_end {s v : State} {w : Word} {e : Fault} (h : gpuList s = .fault e)
    (hv : linkedNodes s.params.llCap ((s.dma.chan 2).madr.setWidth 32) 0 s = .ok (w, v)) :
    e.record.map (·.component) ≠ some .graphics := by
  unfold gpuList at h
  rw [hv] at h
  exact desync_component (endGpuTransfer_fault h)

/-- What the host may do only while it holds the machine does nothing otherwise. -/
theorem whileHeld_not_held {s : State} (h : s.host.held = false) (f : State → State) : whileHeld f s = s := by
  simp [whileHeld, h]

/-- Settles O52: a halting instruction by `observed`, a halting slot by where its loop of channels stopped, and the
host's operations by their tests of HALT and of the hold. -/
theorem holdAndHalt : Obligations.HoldAndHalt := by
  refine ⟨fun s e h => by simp [observed, h], fun s t e hp hd => ?_, fun s n => ?_⟩
  · obtain ⟨k, u, hk, hu, he⟩ := repeatOut_eq_fault hd
    have hl : slotLast 7 t = transferLast k u := slotLast_fault hk hu he
    have htr : transfer k u = .fault e := dmaChannel_fault he
    have hany := changesOnly_halted_any e t
    have heng := changesOnly_halted_engine (e := e) t
    have hown := changesOnly_halted e t
    rw [hl] at hany heng hown
    rw [observed_slot_halt hp hd]
    refine ⟨rfl, changesOnly_slot_halt e t, k, u, hk, hu, he, ?_, ?_, ?_, ?_, ?_, ?_⟩
    · intro hc
      have hstill : desync k u = .fault e ∧ transferLast k u = u := by
        by_cases h2 : k = 2
        · subst h2
          exact transfer_two_refused (hc.resolve_left (by simp)) htr
        · exact transfer_fault_other h2 htr
      have h := heng (desync_component hstill.1)
      rwa [hstill.2] at h
    · rintro rfl hs ho he
      exact slot_halt_start hl he hs ho
    · rintro rfl hs ho j v hj hv hf
      rw [transferLast_two_toGpu hs ho, repeatLast_fault hj hv hf] at hany
      exact hany
    · rintro rfl hs ho v hv
      rw [transfer_two_blocks hs] at htr
      rw [transferLast_two_toGpu hs ho, repeatLast_next hv] at heng
      exact heng (desync_component (gpuBlocks_fault_end htr (.inl ⟨ho, hv⟩)))
    · rintro rfl hs ho hm v hv
      rw [transfer_two_blocks hs] at htr
      rw [transferLast_two_fromGpu hs ho hm, repeatLast_next hv] at heng
      exact heng (desync_component (gpuBlocks_fault_end htr (.inr ⟨ho, hm, hv⟩)))
    · rintro rfl hs ho
      rw [transfer_two_list hs ho] at htr
      rw [transferLast_two_list hs ho] at heng hown
      refine ⟨fun h v hv => ?_, fun _ => hown⟩
      rw [listLast_next hv] at heng
      exact heng (gpuList_fault_end htr hv)
  · refine ⟨fun h => ?_, fun h hh => ?_, fun hb => ?_, hostContinue_held n s, rfl, fun hh r v a bs => ?_⟩
    · simp [step, Option.isSome_iff_ne_none.mpr h]
    · simp [step, h, hh]
    · simp [continueFrom, State.atBreak, hb, hostHold]
    · exact ⟨whileHeld_not_held hh _, whileHeld_not_held hh _, whileHeld_not_held hh _, whileHeld_not_held hh _,
        whileHeld_not_held hh _, whileHeld_not_held hh _, whileHeld_not_held hh _⟩

end Sys2Proof.Machine

/-!
PROOFS. The statements about memory and the bus (20_memory.md): the canonical form, the segments, a plain byte
array's reads after writes, and the failures of the bus.
-/

namespace Sys2Proof.Machine

/-- Settles O54, from the parts that every step keeps. -/
theorem stepKeepsMemory : Obligations.StepKeepsMemory :=
  fun _ _ hmem h => (step_keepsSound h).memory hmem

/-! ## Segments -/

/-- The three top bits of an address number its segment. -/
theorem toNat_segment (va : Word) : (va.extractLsb' 29 3).toNat = va.toNat / 0x20000000 := by
  rw [BitVec.extractLsb'_toNat, Nat.shiftRight_eq_div_pow]
  omega

theorem toNat_and_low29 (a : Word) : (a &&& 0x1FFFFFFF#32).toNat = a.toNat % 0x20000000 :=
  Nat.and_two_pow_sub_one_eq_mod a.toNat 29

theorem toNat_and_low31 (a : Word) : (a &&& 0x7FFFFFFF#32).toNat = a.toNat % 0x80000000 :=
  Nat.and_two_pow_sub_one_eq_mod a.toNat 31

/-- `phys` takes the segment bits off the two middle segments, and leaves every other address as it is. -/
theorem toNat_phys (va : Word) : (phys va).toNat =
    if 0x80000000 ≤ va.toNat ∧ va.toNat < 0xC0000000 then va.toNat % 0x20000000 else va.toNat := by
  unfold phys
  rw [toNat_segment]
  split
  · rw [toNat_and_low31]; split <;> omega
  · rw [toNat_and_low29]; split <;> omega
  · next h4 h5 =>
    refine (if_neg fun ⟨hlo, hhi⟩ => ?_).symm
    exact (show va.toNat / 0x20000000 = 4 ∨ va.toNat / 0x20000000 = 5 by omega).elim h4 h5

/-- The address of segment `k` at a physical address below the first segment's end. -/
theorem toNat_or_segment {a : Word} (h : a.toNat < 0x20000000) (k : Fin 8) :
    (a ||| BitVec.ofNat 32 (2 ^ 29 * k)).toNat = 2 ^ 29 * k + a.toNat := by
  have hk : 2 ^ 29 * k.val < 2 ^ 32 := by omega
  rw [BitVec.toNat_or, BitVec.toNat_ofNat, Nat.mod_eq_of_lt hk, Nat.or_comm]
  exact (Nat.two_pow_add_eq_or_of_lt h k).symm

/-- Settles O10: each clause is an equation of numbers, by `toNat_phys`. -/
theorem segmentMap : Obligations.SegmentMap := by
  refine ⟨fun va h => ?_, fun va hlo hhi => ⟨?_, ?_⟩, fun va hlo hhi => ?_, fun va h => ?_,
    fun a h => ⟨?_, ?_, ?_⟩⟩ <;> apply BitVec.eq_of_toNat_eq <;> rw [toNat_phys]
  · rw [if_neg (by omega)]
  · rw [toNat_and_low31]; split <;> omega
  · rw [toNat_and_low29]; split <;> omega
  · rw [toNat_and_low29]; split <;> omega
  · rw [if_neg (by omega)]
  · rw [if_neg (by omega)]
  · have view : (a ||| 0x80000000#32).toNat = 0x80000000 + a.toNat := toNat_or_segment h 4
    rw [view]; split <;> omega
  · have view : (a ||| 0xA0000000#32).toNat = 0xA0000000 + a.toNat := toNat_or_segment h 5
    rw [view]; split <;> omega

/-! ## Reading after a write -/

theorem toNat_lowBits (n : Width) (v : Word) : (lowBits n v).toNat = v.toNat % 2 ^ (8 * n.bytes) := by
  cases n
  · exact Nat.and_two_pow_sub_one_eq_mod v.toNat 8
  · exact Nat.and_two_pow_sub_one_eq_mod v.toNat 16
  · exact (Nat.mod_eq_of_lt v.isLt).symm

theorem toNat_setWidth_extractLsb_zero (v : Word) {k : Nat} (hk : k ≤ 32) :
    ((v.extractLsb' 0 k).setWidth 32).toNat = v.toNat % 2 ^ k := by
  rw [BitVec.toNat_setWidth_of_le hk, BitVec.extractLsb'_toNat, Nat.shiftRight_zero]

/-- What was written is read back at the same width (20_memory.md R87). -/
theorem Memory.read_write {m : Memory} (a : Nat) (n : Width) (v : Word) (h : wf m = true) :
    read (write m a n v) a n = lowBits n v := by
  have first : readByte (write m a n v) a = v.extractLsb' 0 8 :=
    readByte_write_in a n v h (k := 0) (by cases n <;> decide)
  cases n with
  | byte =>
    apply BitVec.eq_of_toNat_eq
    rw [read, first, toNat_lowBits]
    exact toNat_setWidth_extractLsb_zero v (by decide)
  | half =>
    have second : readByte (write m a .half v) (a + 1) = v.extractLsb' 8 8 := readByte_write_in a .half v h (by decide)
    apply BitVec.eq_of_toNat_eq
    rw [read, first, second, BitVec.extractLsb'_append_extractLsb'_eq_extractLsb' (by rfl), toNat_lowBits]
    exact toNat_setWidth_extractLsb_zero v (by decide)
  | word => exact read_write_word a v h

/-- What can be stored to can be read. -/
theorem plainAt_of_storableAt {pa : Word} {n : Width} (h : storableAt pa n = true) : plainAt pa n = true := by
  unfold storableAt at h
  unfold plainAt
  split at h
  · simp only [Bool.or_eq_true, Bool.and_eq_true] at h ⊢
    tauto
  · cases h

/-- Settles O11: the write is a store, and the read gives what the store left. -/
theorem readAfterWrite : Obligations.ReadAfterWrite := by
  intro pa v n s hmem hst
  refine ⟨storeWrite pa n v s, busWrite_storable hst, ?_, storeWrite_stored hmem⟩
  rw [busRead_plain (plainAt_of_storableAt hst), storeWrite, State.setMem_mem, Memory.read_write _ n v hmem]

/-! ## Failures of the bus -/

/-- The rows of the address map do not overlap (20_memory.md R83). -/
theorem addressMap_disjoint : ∀ r ∈ addressMap, ∀ q ∈ addressMap,
    r = q ∨ r.base + r.size ≤ q.base ∨ q.base + q.size ≤ r.base := by decide

theorem Region.holds_iff (r : Region) (a n : Nat) :
    r.holds a n = true ↔ r.base ≤ a ∧ a + n ≤ r.base + r.size := by
  simp [Region.holds]

/-- Two rows that hold accesses at one address are one row. -/
theorem addressMap_unique {r q : Region} {a n m : Nat} (hr : r ∈ addressMap) (hq : q ∈ addressMap) (hn : 0 < n)
    (hm : 0 < m) (har : r.holds a n = true) (haq : q.holds a m = true) : r = q := by
  rw [Region.holds_iff] at har haq
  exact (addressMap_disjoint r hr q hq).resolve_right (by omega)

/-- The row that holds an access is the one the map resolves it to. -/
theorem resolve_of_holds {r : Region} {a n : Nat} (hr : r ∈ addressMap) (hn : 0 < n) (h : r.holds a n = true) :
    resolve a n = some r := by
  cases e : resolve a n with
  | none => exact absurd h (List.find?_eq_none.mp e r hr)
  | some q =>
    have hq : q.holds a n = true := List.find?_some (p := fun x => Region.holds x a n) e
    exact congrArg some (addressMap_unique (List.mem_of_find?_eq_some e) hr hn hn hq h)

/-- An access inside ROM is ROM's, at every width. -/
theorem owner_rom {pa : Word} {n : Width} (hlo : 0x1FC00000 ≤ pa.toNat) (hhi : pa.toNat + n.bytes ≤ 0x1FC80000) :
    owner pa n = some ⟨0x1FC00000, 0x80000, .rom⟩ := by
  have hn : 0 < n.bytes := by cases n <;> decide
  have hr : resolve pa.toNat n.bytes = some ⟨0x1FC00000, 0x80000, .rom⟩ :=
    resolve_of_holds (by decide) hn ((Region.holds_iff _ _ _).mpr ⟨hlo, hhi⟩)
  simp [owner, hr, Owner.takes]

/-- Settles O19: an access without an owner fails both ways, ROM refuses writes, and the rows are disjoint. -/
theorem busErrors : Obligations.BusErrors := by
  refine ⟨fun pa v n s => ⟨fun h => ⟨?_, ?_⟩, fun hlo hhi => ?_⟩,
    fun _ _ _ _ _ => addressMap_unique⟩
  · rw [busRead, h, readError]
  · rw [busWrite, h, writeError]
  · rw [busWrite, owner_rom hlo hhi, writeError]

end Sys2Proof.Machine

/-!
PROOFS. The statements about decoding and encoding (30_encoding.md). First the value of a field and of each format's
word, from which every field of a word and every word of its fields follow; then the two directions: what the decoder
makes of an encoded word, and the word of what the decoder accepts.
-/

namespace Sys2Proof.Machine

/-! ## Fields and formats as numbers -/

/-- A field appended below stands for its value, and shifts the rest up by its width. -/
theorem toNat_append_eq {m n : Nat} (x : BitVec m) (y : BitVec n) :
    (x ++ y).toNat = x.toNat * 2 ^ n + y.toNat := by
  rw [BitVec.toNat_append, ← Nat.shiftLeft_add_eq_or_of_lt y.isLt, Nat.shiftLeft_eq]

theorem toNat_field {m : Nat} (w : BitVec m) (a n : Nat) :
    (w.extractLsb' a n).toNat = w.toNat / 2 ^ a % 2 ^ n := by
  rw [BitVec.extractLsb'_toNat, Nat.shiftRight_eq_div_pow]

theorem toNat_getLsbD {m : Nat} (w : BitVec m) (a : Nat) : (w.getLsbD a).toNat = w.toNat / 2 ^ a % 2 :=
  Nat.toNat_testBit w.toNat a

theorem ofBool_getLsbD {m : Nat} (w : BitVec m) (a : Nat) : BitVec.ofBool (w.getLsbD a) = w.extractLsb' a 1 := by
  rw [← BitVec.toNat_inj, BitVec.toNat_ofBool, toNat_getLsbD, toNat_field, Nat.pow_one]

theorem bool_toNat_inj {a b : Bool} : a.toNat = b.toNat ↔ a = b := by
  cases a <;> cases b <;> simp

theorem toNat_wordR (rs rt rd sh : BitVec 5) (f : BitVec 6) : (wordR rs rt rd sh f).toNat =
    rs.toNat * 2 ^ 21 + rt.toNat * 2 ^ 16 + rd.toNat * 2 ^ 11 + sh.toNat * 2 ^ 6 + f.toNat := by
  simp only [wordR, toNat_append_eq, BitVec.toNat_ofNat]; omega

theorem toNat_wordI (op : BitVec 6) (rs rt : BitVec 5) (imm : BitVec 16) : (wordI op rs rt imm).toNat =
    op.toNat * 2 ^ 26 + rs.toNat * 2 ^ 21 + rt.toNat * 2 ^ 16 + imm.toNat := by
  simp only [wordI, toNat_append_eq]; omega

theorem toNat_wordJ (op : BitVec 6) (t : BitVec 26) : (wordJ op t).toNat = op.toNat * 2 ^ 26 + t.toNat :=
  toNat_append_eq op t

theorem toNat_wordTrap (c : BitVec 20) (f : BitVec 6) : (wordTrap c f).toNat = c.toNat * 2 ^ 6 + f.toNat := by
  simp only [wordTrap, toNat_append_eq, BitVec.toNat_ofNat]; omega

theorem toNat_wordCop (op : BitVec 6) (sub rt rd : BitVec 5) : (wordCop op sub rt rd).toNat =
    op.toNat * 2 ^ 26 + sub.toNat * 2 ^ 21 + rt.toNat * 2 ^ 16 + rd.toNat * 2 ^ 11 := by
  simp only [wordCop, toNat_append_eq, BitVec.toNat_ofNat]; omega

theorem toNat_wordGte (a : GteArgs) (c : BitVec 6) : (wordGte a c).toNat =
    0x4A000000 + a.ign5.toNat * 2 ^ 20 + a.sf.toNat * 2 ^ 19 + a.mx.toNat * 2 ^ 17 + a.v.toNat * 2 ^ 15 +
      a.cv.toNat * 2 ^ 13 + a.ign2.toNat * 2 ^ 11 + a.lm.toNat * 2 ^ 10 + a.ign4.toNat * 2 ^ 6 + c.toNat := by
  simp only [wordGte, toNat_append_eq, BitVec.toNat_ofNat, BitVec.toNat_ofBool]; omega

theorem toNat_wordGpu (c : BitVec 8) (arg : BitVec 24) : (wordGpu c arg).toNat = c.toNat * 2 ^ 24 + arg.toNat :=
  toNat_append_eq c arg

/-! ## The fields of a format's word -/

@[simp] theorem fields_wordR (rs rt rd sh : BitVec 5) (f : BitVec 6) :
    fOp (wordR rs rt rd sh f) = 0#6 ∧ fRs (wordR rs rt rd sh f) = rs ∧ fRt (wordR rs rt rd sh f) = rt ∧
      fRd (wordR rs rt rd sh f) = rd ∧ fShamt (wordR rs rt rd sh f) = sh ∧ fFunct (wordR rs rt rd sh f) = f := by
  simp only [fOp, fRs, fRt, fRd, fShamt, fFunct, ← BitVec.toNat_inj, toNat_field, toNat_wordR, BitVec.toNat_ofNat]
  omega

@[simp] theorem fields_wordI (op : BitVec 6) (rs rt : BitVec 5) (imm : BitVec 16) :
    fOp (wordI op rs rt imm) = op ∧ fRs (wordI op rs rt imm) = rs ∧ fRt (wordI op rs rt imm) = rt ∧
      fImm (wordI op rs rt imm) = imm := by
  simp only [fOp, fRs, fRt, fImm, ← BitVec.toNat_inj, toNat_field, toNat_wordI]
  omega

@[simp] theorem fields_wordJ (op : BitVec 6) (t : BitVec 26) :
    fOp (wordJ op t) = op ∧ fTarget (wordJ op t) = t := by
  simp only [fOp, fTarget, ← BitVec.toNat_inj, toNat_field, toNat_wordJ]
  omega

@[simp] theorem fields_wordTrap (c : BitVec 20) (f : BitVec 6) :
    fOp (wordTrap c f) = 0#6 ∧ fCode (wordTrap c f) = c ∧ fFunct (wordTrap c f) = f := by
  simp only [fOp, fCode, fFunct, ← BitVec.toNat_inj, toNat_field, toNat_wordTrap, BitVec.toNat_ofNat]
  omega

@[simp] theorem fields_wordCop (op : BitVec 6) (sub rt rd : BitVec 5) :
    fOp (wordCop op sub rt rd) = op ∧ fRs (wordCop op sub rt rd) = sub ∧ fRt (wordCop op sub rt rd) = rt ∧
      fRd (wordCop op sub rt rd) = rd ∧ (wordCop op sub rt rd).extractLsb' 0 11 = 0#11 := by
  simp only [fOp, fRs, fRt, fRd, ← BitVec.toNat_inj, toNat_field, toNat_wordCop, BitVec.toNat_ofNat]
  omega

@[simp] theorem fields_wordGte (a : GteArgs) (c : BitVec 6) :
    fOp (wordGte a c) = 0x12#6 ∧ (wordGte a c).getLsbD 25 = true ∧ fGte (wordGte a c) = a ∧
      fFunct (wordGte a c) = c := by
  obtain ⟨ign5, sf, mx, v, cv, ign2, lm, ign4⟩ := a
  have hsf := sf.toNat_le
  have hlm := lm.toNat_le
  simp only [fOp, fGte, fFunct, GteArgs.mk.injEq, ← BitVec.toNat_inj, ← bool_toNat_inj, toNat_field, toNat_getLsbD,
    toNat_wordGte, BitVec.toNat_ofNat, Bool.toNat_true]
  omega

@[simp] theorem fields_wordGpu (c : BitVec 8) (arg : BitVec 24) :
    fCmd (wordGpu c arg) = c ∧ fArg (wordGpu c arg) = arg := by
  simp only [fCmd, fArg, ← BitVec.toNat_inj, toNat_field, toNat_wordGpu]
  omega

/-- Bit 25, which tells a coprocessor-2 command from a move, is the highest bit of the selector (R129, R130). -/
@[simp] theorem bit25_wordCop (op : BitVec 6) (sub rt rd : BitVec 5) : (wordCop op sub rt rd)[25] = sub[4] := by
  rw [← BitVec.getLsbD_eq_getElem, ← BitVec.getLsbD_eq_getElem, ← bool_toNat_inj, toNat_getLsbD, toNat_getLsbD,
    toNat_wordCop]
  omega

/-! ## The word of its fields -/

section
variable {w : Word}

theorem wordR_of_fields {rs rt rd sh : BitVec 5} {f : BitVec 6} (hop : (fOp w).toNat = 0)
    (hf : (fFunct w).toNat = f.toNat) (hrs : fRs w = rs) (hrt : fRt w = rt) (hrd : fRd w = rd)
    (hsh : fShamt w = sh) : wordR rs rt rd sh f = w := by
  obtain rfl := BitVec.eq_of_toNat_eq hf
  subst hrs hrt hrd hsh
  simp only [fOp, fRs, fRt, fRd, fShamt, fFunct, ← BitVec.toNat_inj, toNat_wordR, toNat_field] at *
  omega

theorem wordI_of_fields {op : BitVec 6} {rs rt : BitVec 5} (hop : (fOp w).toNat = op.toNat) (hrs : fRs w = rs)
    (hrt : (fRt w).toNat = rt.toNat) : wordI op rs rt (fImm w) = w := by
  simp only [fOp, fRs, fRt, fImm, ← BitVec.toNat_inj, toNat_wordI, toNat_field] at *
  omega

theorem wordJ_of_fields {op : BitVec 6} (hop : (fOp w).toNat = op.toNat) : wordJ op (fTarget w) = w := by
  simp only [fOp, fTarget, ← BitVec.toNat_inj, toNat_wordJ, toNat_field] at *
  omega

theorem wordTrap_of_fields {f : BitVec 6} (hop : (fOp w).toNat = 0) (hf : (fFunct w).toNat = f.toNat) :
    wordTrap (fCode w) f = w := by
  simp only [fOp, fCode, fFunct, ← BitVec.toNat_inj, toNat_wordTrap, toNat_field] at *
  omega

theorem wordCop_of_fields {op : BitVec 6} {sub : BitVec 5} (hop : (fOp w).toNat = op.toNat)
    (hsub : (fRs w).toNat = sub.toNat) (hlow : w.extractLsb' 0 11 = 0#11) :
    wordCop op sub (fRt w) (fRd w) = w := by
  simp only [fOp, fRs, fRt, fRd, ← BitVec.toNat_inj, toNat_wordCop, toNat_field, BitVec.toNat_ofNat] at *
  omega

/-- The fields of a command word are adjacent slices, below the seven bits that every command has. -/
theorem wordGte_of_fields {c : BitVec 6} (hop : (fOp w).toNat = 0x12) (hcmd : w.getLsbD 25 = true)
    (hc : (fFunct w).toNat = c.toNat) : wordGte (fGte w) c = w := by
  obtain rfl := BitVec.eq_of_toNat_eq hc
  have htop : 0b0100101#7 = w.extractLsb' 25 7 := by
    simp only [fOp, ← BitVec.toNat_inj, ← bool_toNat_inj, toNat_field, toNat_getLsbD, Bool.toNat_true,
      BitVec.toNat_ofNat] at *
    omega
  simp only [wordGte, fGte, fFunct, ofBool_getLsbD, htop]
  iterate 9 rw [BitVec.extractLsb'_append_extractLsb'_eq_extractLsb' (by decide)]
  exact BitVec.extractLsb'_eq_self

end

/-! ## Decoding an encoded word -/

theorem decodeCpu_wordR (rs rt rd sh : BitVec 5) (f : BitVec 6) :
    decodeCpu (wordR rs rt rd sh f) = decodeSpecial (wordR rs rt rd sh f) := by
  simp [decodeCpu]

theorem decodeCpu_wordTrap (c : BitVec 20) (f : BitVec 6) :
    decodeCpu (wordTrap c f) = decodeSpecial (wordTrap c f) := by
  simp [decodeCpu]

theorem decodeCpu_wordGte (a : GteArgs) (c : BitVec 6) : decodeCpu (wordGte a c) = decodeGte (wordGte a c) := by
  simp [decodeCpu, decodeCop2]

/-- The decoder on the encoder's word, format by format (R121). -/
theorem decodeCpu_encodeWord {i : Instr} (hi : i.space = .cpu) : decodeCpu (encodeWord i) = .ok i := by
  cases i
  case add | addu | sub | subu | and | or | xor | nor | slt | sltu | sll | srl | sra | sllv | srlv | srav |
      mult | multu | div | divu | mfhi | mflo | mthi | mtlo | jr | jalr =>
    simp [encodeWord, encodeWords, decodeCpu_wordR, decodeSpecial, strict]
  case syscall | brk =>
    simp [encodeWord, encodeWords, decodeCpu_wordTrap, decodeSpecial]
  case addi | addiu | slti | sltiu | andi | ori | xori | lui | lb | lbu | lh | lhu | lw | lwl | lwr |
      sb | sh | sw | swl | swr | beq | bne | blez | bgtz | lwc2 | swc2 =>
    simp [encodeWord, encodeWords, decodeCpu, strict]
  case bltz | bgez | bltzal | bgezal =>
    simp [encodeWord, encodeWords, decodeCpu, decodeRegimm]
  case j | jal =>
    simp [encodeWord, encodeWords, decodeCpu]
  case mfc0 | mtc0 =>
    simp [encodeWord, encodeWords, decodeCpu, decodeCop0, strict]
  case rfe => rfl
  case mfc2 | cfc2 | mtc2 | ctc2 =>
    simp [encodeWord, encodeWords, decodeCpu, decodeCop2, strict]
  case gteRtps | gteNclip | gteOp | gteDpcs | gteIntpl | gteMvmva | gteNcds | gteCdp | gteNcdt | gteNccs | gteCc |
      gteNcs | gteNct | gteSqr | gteDcpl | gteDpct | gteAvsz3 | gteAvsz4 | gteRtpt | gteGpf | gteGpl | gteNcct =>
    simp [encodeWord, encodeWords, decodeCpu_wordGte, decodeGte]
  all_goals contradiction

theorem decodeGp1_encodeWord {i : Instr} (hi : i.space = .gp1) : decodeGp1 (encodeWord i) = .ok i := by
  cases i
  case gp1Reset | gp1ResetBuffer | gp1AckIrq | gp1DisplayEnable | gp1DmaDirection | gp1DisplayStart | gp1HRange |
      gp1VRange | gp1DisplayMode | gp1GetInfo =>
    simp [encodeWord, encodeWords, decodeGp1]
  all_goals contradiction

theorem decodeDisc_encodeWord {i : Instr} (hi : i.space = .disc) :
    decodeDisc ((encodeWord i).extractLsb' 0 8) = .ok i := by
  cases i
  case cdcGetstat | cdcSetloc | cdcPlay | cdcReadN | cdcMotorOn | cdcStop | cdcPause | cdcInit | cdcMute |
      cdcDemute | cdcSetfilter | cdcSetmode | cdcGetparam | cdcGetlocL | cdcGetlocP | cdcGetTN | cdcGetTD |
      cdcSeekL | cdcSeekP | cdcTest | cdcGetID | cdcReadS | cdcReadTOC =>
    rfl
  all_goals contradiction

/-! ## Bytes -/

theorem wordOfBytes_bytes (w : Word) :
    wordOfBytes (w.extractLsb' 0 8) (w.extractLsb' 8 8) (w.extractLsb' 16 8) (w.extractLsb' 24 8) = w := by
  simp only [wordOfBytes, ← BitVec.toNat_inj, toNat_append_eq, toNat_field]
  omega

/-- The bytes of words are read back as those words. -/
@[simp] theorem wordsOfBytes_flatMap (ws : List Word) : wordsOfBytes (ws.flatMap bytesOfWord) = ws := by
  induction ws with
  | nil => rfl
  | cons w ws ih =>
    simp only [List.flatMap_cons, bytesOfWord, List.cons_append, List.nil_append, wordsOfBytes, wordOfBytes_bytes]
    exact congrArg (w :: ·) ih

theorem wordsOfBytes_encode {i : Instr} (hi : i.space ≠ .disc) : wordsOfBytes (encode i) = encodeWords i := by
  unfold encode
  split
  · contradiction
  · exact wordsOfBytes_flatMap _

theorem encodeWords_eq_cons (i : Instr) : ∃ ws, encodeWords i = encodeWord i :: ws := by
  unfold encodeWord
  cases i <;> exact ⟨_, rfl⟩

/-- Settles O58: the bytes give back the first word, or the command byte, and each space's decoder the instruction. -/
theorem roundTrip : Obligations.RoundTrip := by
  intro i _ hgp0
  obtain ⟨ws, hws⟩ := encodeWords_eq_cons i
  cases hi : i.space with
  | cpu => simp [decode, wordsOfBytes_encode, hi, hws, decodeCpu_encodeWord hi]
  | gp0 => exact absurd hi hgp0
  | gp1 => simp [decode, wordsOfBytes_encode, hi, hws, decodeGp1_encodeWord hi]
  | disc => simp [decode, encode, hi, decodeDisc_encodeWord hi]

/-! ## The word of what the decoder accepts -/

/-- Whatever instruction a decoder answers for `w`, the encoder writes it as `w`. -/
def EncodedAs (w : Word) (r : Except Reject Instr) : Prop := ∀ i, r = .ok i → encodeWords i = [w]

section
variable {w : Word}

theorem EncodedAs.ok {i : Instr} (h : encodeWords i = [w]) : EncodedAs w (.ok i) := by
  rintro _ ⟨⟩; exact h

theorem EncodedAs.error {e : Reject} : EncodedAs w (.error e) := by
  rintro _ ⟨⟩

theorem EncodedAs.strict {b : Bool} {i : Instr} (h : b = true → encodeWords i = [w]) : EncodedAs w (strict b i) := by
  cases b with
  | false => exact .error
  | true => exact .ok (h rfl)

theorem decodeSpecial_encodedAs (hop : (fOp w).toNat = 0) : EncodedAs w (decodeSpecial w) := by
  unfold decodeSpecial
  split
  -- SYSCALL and BREAK, whose code fills the word
  case h_9 hf | h_10 hf => exact .ok (congrArg ([·]) (wordTrap_of_fields hop hf))
  -- no function of R126
  case h_29 => exact .error
  all_goals
    rename_i hf
    refine .strict fun hz => congrArg ([·]) (wordR_of_fields hop hf ?_ ?_ ?_ ?_) <;> simp_all

theorem decodeRegimm_encodedAs (hop : (fOp w).toNat = 1) : EncodedAs w (decodeRegimm w) := by
  unfold decodeRegimm
  split
  -- no selector of R127
  case h_5 => exact .error
  all_goals
    rename_i hrt
    exact .ok (congrArg ([·]) (wordI_of_fields hop rfl hrt))

theorem decodeCop0_encodedAs (hop : (fOp w).toNat = 0x10) : EncodedAs w (decodeCop0 w) := by
  unfold decodeCop0
  split
  -- neither move: RFE or nothing
  case h_3 =>
    split
    case isTrue h => exact .ok (congrArg ([·]) h.symm)
    case isFalse => exact .error
  all_goals
    rename_i hrs
    exact .strict fun hz => congrArg ([·]) (wordCop_of_fields hop hrs (eq_of_beq hz))

theorem decodeGte_encodedAs (hop : (fOp w).toNat = 0x12) (hcmd : w.getLsbD 25 = true) :
    EncodedAs w (decodeGte w) := by
  unfold decodeGte
  split
  -- no command number of R380
  case h_23 => exact .error
  all_goals
    rename_i hf
    exact .ok (congrArg ([·]) (wordGte_of_fields hop hcmd hf))

theorem decodeCop2_encodedAs (hop : (fOp w).toNat = 0x12) : EncodedAs w (decodeCop2 w) := by
  unfold decodeCop2
  split
  case isTrue hcmd => exact decodeGte_encodedAs hop hcmd
  case isFalse =>
    split
    -- none of the four moves
    case h_5 => exact .error
    all_goals
      rename_i hrs
      exact .strict fun hz => congrArg ([·]) (wordCop_of_fields hop hrs (eq_of_beq hz))

/-- By primary opcode: the four opcodes with a decoder of their own, format J, the words of format I with an unused
register field, an opcode blank in R124, and the rest of format I. -/
theorem decodeCpu_encodedAs : EncodedAs w (decodeCpu w) := by
  unfold decodeCpu
  split
  case h_1 hop => exact decodeSpecial_encodedAs hop
  case h_2 hop => exact decodeRegimm_encodedAs hop
  case h_17 hop => exact decodeCop0_encodedAs hop
  case h_18 hop => exact decodeCop2_encodedAs hop
  case h_3 hop | h_4 hop => exact .ok (congrArg ([·]) (wordJ_of_fields hop))
  case h_7 hop | h_8 hop =>
    exact .strict fun hz => congrArg ([·]) (wordI_of_fields hop rfl (congrArg BitVec.toNat (eq_of_beq hz)))
  case h_16 hop => exact .strict fun hz => congrArg ([·]) (wordI_of_fields hop (eq_of_beq hz) rfl)
  case h_33 => exact .error
  all_goals
    rename_i hop
    exact .ok (congrArg ([·]) (wordI_of_fields hop rfl rfl))

end

/-- Only three GP0 commands can be ill-formed. -/
theorem wf_of_space_cpu {i : Instr} (hi : i.space = .cpu) : i.wf = true := by
  unfold Instr.wf
  split
  case h_1 | h_2 | h_3 => contradiction
  case h_4 => rfl

/-- Settles O60, from the fields of the word, decoder by decoder. -/
theorem decodeIsExact : Obligations.DecodeIsExact := fun _ i h =>
  have hi : i.space = .cpu := decodeCpu_space h
  ⟨decodeCpu_encodedAs i h, hi, wf_of_space_cpu hi⟩

end Sys2Proof.Machine

/-!
PROOFS. The statements about arithmetic, logic and shifts (40_alu.md). First the exact number behind each word
operation that an instruction uses; an instruction's clause then says that it writes that word and nothing else.
-/

namespace Sys2Proof.Machine

/-! ## Results as numbers -/

theorem toInt_simm (imm : BitVec 16) : (simm imm).toInt = imm.toInt :=
  BitVec.toInt_signExtend_of_le (by decide)

theorem add_eq_ofInt (x y : Word) : x + y = BitVec.ofInt 32 (x.toInt + y.toInt) := by
  rw [BitVec.ofInt_add, BitVec.ofInt_toInt, BitVec.ofInt_toInt]

theorem sub_eq_ofInt (x y : Word) : x - y = BitVec.ofInt 32 (x.toInt - y.toInt) := by
  rw [← BitVec.toInt_inj, BitVec.toInt_sub, BitVec.toInt_ofInt]

theorem add_simm_eq_ofInt (x : Word) (imm : BitVec 16) : x + simm imm = BitVec.ofInt 32 (x.toInt + imm.toInt) := by
  rw [add_eq_ofInt, toInt_simm]

theorem boolWord_slt (x y : Word) : boolWord (x.slt y) = if x.toInt < y.toInt then 1 else 0 := by
  simp only [boolWord, BitVec.slt_iff_toInt_lt]

theorem boolWord_ult (x y : Word) : boolWord (x.ult y) = if x.toNat < y.toNat then 1 else 0 := by
  simp only [boolWord, BitVec.ult_iff_lt, BitVec.lt_def]

theorem boolWord_slt_simm (x : Word) (imm : BitVec 16) :
    boolWord (x.slt (simm imm)) = if x.toInt < imm.toInt then 1 else 0 := by
  rw [boolWord_slt, toInt_simm]

/-- The upper immediate is a multiple of `2 ^ 16` that fits in 32 bits. -/
theorem upper_eq_ofNat (imm : BitVec 16) : upper imm = BitVec.ofNat 32 (imm.toNat * 2 ^ 16) := by
  rw [← BitVec.toNat_inj, upper, toNat_append_eq, BitVec.toNat_ofNat, BitVec.toNat_ofNat]
  omega

theorem shiftLeft_eq_ofNat (x : Word) (n : Nat) : x <<< n = BitVec.ofNat 32 (x.toNat * 2 ^ n) :=
  congrArg (BitVec.ofNat 32) (Nat.shiftLeft_eq x.toNat n)

theorem ushiftRight_eq_ofNat (x : Word) (n : Nat) : x >>> n = BitVec.ofNat 32 (x.toNat / 2 ^ n) := by
  rw [← Nat.shiftRight_eq_div_pow, ← BitVec.toNat_ushiftRight, BitVec.ofNat_toNat, BitVec.setWidth_eq]

/-- Euclidean division by a positive number is floor division. -/
theorem sshiftRight_eq_ofInt (x : Word) (n : Nat) : x.sshiftRight n = BitVec.ofInt 32 (x.toInt / 2 ^ n) :=
  congrArg (BitVec.ofInt 32) (Int.shiftRight_eq_div_pow x.toInt n)

theorem shiftAmount_eq_mod (v : Word) : shiftAmount v = v.toNat % 32 := by
  rw [shiftAmount, toNat_field]
  omega

/-- The meanings below are a `writeResult` by definition, so an instruction's clause is the equation of its result. -/
theorem writeResult_of_eq {d : RegNum} {v w : Word} (h : v = w) (s : State) :
    writeResult d v s = .next (s.setReg d w) := by
  rw [h, writeResult]

/-! ## Shifts -/

/-- Settles O6: a shift is exact arithmetic by the power of two of its amount, which is the field of the word or the
amount register modulo 32. -/
theorem shiftResults : Obligations.ShiftResults := by
  intro d b a n s
  have amount : shiftAmount (s.reg a) = (s.reg a).toNat % 32 := shiftAmount_eq_mod (s.reg a)
  refine ⟨?sll, ?srl, ?sra, ?sllv, ?srlv, ?srav⟩
  case sll => exact writeResult_of_eq (shiftLeft_eq_ofNat _ _) s
  case srl => exact writeResult_of_eq (ushiftRight_eq_ofNat _ _) s
  case sra => exact writeResult_of_eq (sshiftRight_eq_ofInt _ _) s
  case sllv => exact writeResult_of_eq (amount ▸ shiftLeft_eq_ofNat _ _) s
  case srlv => exact writeResult_of_eq (amount ▸ ushiftRight_eq_ofNat _ _) s
  case srav => exact writeResult_of_eq (amount ▸ sshiftRight_eq_ofInt _ _) s

/-! ## Arithmetic, logic and comparison -/

/-- Settles O5: the logic instructions write the word the statement names; for the others that word is the exact
result of the operation. -/
theorem arithmeticResults : Obligations.ArithmeticResults := by
  refine ⟨fun d a b s => ⟨?addu, ?subu, rfl, rfl, rfl, rfl, ?slt, ?sltu⟩,
    fun d a imm s => ⟨?addiu, ?slti, ?sltiu, rfl, rfl, rfl, ?lui⟩⟩
  case addu => exact writeResult_of_eq (BitVec.add_def _ _) s
  case subu => exact writeResult_of_eq (sub_eq_ofInt _ _) s
  case slt => exact writeResult_of_eq (boolWord_slt _ _) s
  case sltu => exact writeResult_of_eq (boolWord_ult _ _) s
  case addiu => exact writeResult_of_eq (add_simm_eq_ofInt _ imm) s
  case slti => exact writeResult_of_eq (boolWord_slt_simm _ imm) s
  case sltiu => exact writeResult_of_eq (boolWord_ult _ (simm imm)) s
  case lui => exact writeResult_of_eq (upper_eq_ofNat imm) s

/-! ## Words of the spec -/

/-- Settles O57: the decoders compute, and each of the twelve words is closed. -/
theorem decodeWords : Obligations.DecodeWords :=
  ⟨rfl, rfl, rfl, rfl, rfl, rfl, rfl, rfl, rfl, rfl, rfl, rfl⟩

end Sys2Proof.Machine

/-!
PROOFS. The statements about multiplication, division and the result pair (41_muldiv.md). The exact product, and the
division law between words; then what the division pairs are in and outside the corners; an instruction's clause says
that it leaves such a pair and changes nothing else.
-/

namespace Sys2Proof.Machine

/-! ## The result pair -/

theorem changesOnly_setHi (s : State) (v : Word) : s.changesOnly [.hi] (s.setHi v) := by
  intro p hp; cases p <;> simp_all [State.sameOn, State.reg, State.byte]

theorem changesOnly_setLo (s : State) (v : Word) : s.changesOnly [.lo] (s.setLo v) := by
  intro p hp; cases p <;> simp_all [State.sameOn, State.reg, State.byte]

/-- What a `writePair` leaves as it was. -/
theorem changesOnly_setPair (s : State) (hi lo : Word) : s.changesOnly [.hi, .lo] ((s.setHi hi).setLo lo) :=
  changesOnly_trans (changesOnly_mono (changesOnly_setHi s hi) (by simp))
    (changesOnly_mono (changesOnly_setLo _ lo) (by simp))

/-! ## Products -/

/-- The two halves of a product put together are the product. -/
theorem productPair_append (p : BitVec 64) : (productPair p).1 ++ (productPair p).2 = p :=
  BitVec.extractLsb'_append_extractLsb'

/-- A signed product of words is at most `2 ^ 62` in magnitude, so 64 bits hold it (R201). -/
theorem toInt_ofInt_product (x y : Word) : (BitVec.ofInt 64 (x.toInt * y.toInt)).toInt = x.toInt * y.toInt := by
  have low : -2 ^ 62 ≤ x.toInt * y.toInt := BitVec.le_toInt_mul_toInt
  have high : x.toInt * y.toInt ≤ 2 ^ 62 := BitVec.toInt_mul_toInt_le
  exact BitVec.toInt_ofInt_eq_self (by decide) (by omega) (by omega)

theorem toNat_ofNat_product (x y : Word) : (BitVec.ofNat 64 (x.toNat * y.toNat)).toNat = x.toNat * y.toNat :=
  (BitVec.toNat_ofNat _ _).trans (Nat.mod_eq_of_lt BitVec.toNat_mul_toNat_lt)

/-- Settles O8: the halves of the exact product make up the product, and the four moves are their equations. -/
theorem resultPair : Obligations.ResultPair := by
  refine ⟨fun a b s => ⟨⟨_, rfl, ?mult, changesOnly_setPair s _ _⟩, ⟨_, rfl, ?multu, changesOnly_setPair s _ _⟩⟩,
    fun r s => ⟨rfl, rfl, ⟨_, rfl, rfl, changesOnly_setHi s _⟩, ⟨_, rfl, rfl, changesOnly_setLo s _⟩⟩⟩
  case mult => exact (congrArg BitVec.toInt (productPair_append _)).trans (toInt_ofInt_product _ _)
  case multu => exact (congrArg BitVec.toNat (productPair_append _)).trans (toNat_ofNat_product _ _)

/-! ## The division law -/

/-- The remainder of a truncated division has the sign of the dividend (R203). -/
theorem tmod_mul_self_nonneg (n d : Int) : 0 ≤ n.tmod d * n := by
  rcases Int.le_total 0 n with hn | hn
  · exact mul_nonneg (Int.tmod_nonneg d hn) hn
  · have rem : 0 ≤ (-n).tmod d := Int.tmod_nonneg d (by omega)
    rw [Int.neg_tmod] at rem
    exact mul_nonneg_of_nonpos_of_nonpos (by omega) hn

/-- The quotient fits in 32 bits unless it is that of -2^31 by -1. -/
theorem toInt_eq_sdiv_mul_add_srem {n d : Word} (h : ¬(n = 0x80000000#32 ∧ d = 0xFFFFFFFF#32)) :
    n.toInt = (n.sdiv d).toInt * d.toInt + (n.srem d).toInt := by
  have quotient : (n.sdiv d).toInt = n.toInt.tdiv d.toInt :=
    BitVec.toInt_sdiv_of_ne_or_ne n d (not_and_or.mp h)
  rw [quotient, BitVec.toInt_srem, Int.tdiv_mul_add_tmod]

theorem natAbs_srem_lt (n : Word) {d : Word} (h : d ≠ 0) : (n.srem d).toInt.natAbs < d.toInt.natAbs := by
  have divisor : d.toInt ≠ 0 := BitVec.toInt_ne.mpr h
  rw [BitVec.toInt_srem, Int.natAbs_tmod]
  exact Nat.mod_lt _ (Int.natAbs_pos.mpr divisor)

theorem srem_mul_self_nonneg (n d : Word) : 0 ≤ (n.srem d).toInt * n.toInt := by
  rw [BitVec.toInt_srem]
  exact tmod_mul_self_nonneg _ _

theorem toNat_eq_udiv_mul_add_umod (n d : Word) : n.toNat = (n / d).toNat * d.toNat + (n % d).toNat := by
  rw [BitVec.toNat_udiv, BitVec.toNat_umod, Nat.div_add_mod']

theorem toNat_umod_lt (n : Word) {d : Word} (h : d ≠ 0) : (n % d).toNat < d.toNat := by
  have divisor : d.toNat ≠ 0 := BitVec.toNat_ne.mp h
  rw [BitVec.toNat_umod]
  exact Nat.mod_lt _ (Nat.pos_of_ne_zero divisor)

/-! ## The division pairs -/

theorem ofInt_tmod (n d : Word) : BitVec.ofInt 32 (n.toInt.tmod d.toInt) = n.srem d := by
  rw [← BitVec.toInt_srem, BitVec.ofInt_toInt]

theorem ofInt_tdiv (n d : Word) : BitVec.ofInt 32 (n.toInt.tdiv d.toInt) = n.sdiv d := by
  rw [← BitVec.toInt_inj, BitVec.toInt_ofInt, BitVec.toInt_sdiv]

theorem isDivCorner_iff (n d : Word) :
    isDivCorner n d = true ↔ d = 0 ∨ n = 0x80000000#32 ∧ d = 0xFFFFFFFF#32 := by
  simp [isDivCorner]

/-- Outside the corners the pair of DIV is the signed remainder and quotient of words, whatever DIV_CORNER. -/
theorem divPair_regular (c : DivCorner) {n d : Word} (hd : d ≠ 0)
    (hn : ¬(n = 0x80000000#32 ∧ d = 0xFFFFFFFF#32)) : divPair c n d = (n.srem d, n.sdiv d) := by
  have regular : ¬isDivCorner n d = true := by
    rw [isDivCorner_iff]; exact not_or.mpr ⟨hd, hn⟩
  unfold divPair
  rw [if_neg regular, ofInt_tmod, ofInt_tdiv]

theorem divuPair_regular (c : DivCorner) (n : Word) {d : Word} (hd : d ≠ 0) : divuPair c n d = (n % d, n / d) := by
  unfold divuPair
  rw [if_neg hd, ← BitVec.toNat_umod, ← BitVec.toNat_udiv, BitVec.ofNat_toNat, BitVec.ofNat_toNat,
    BitVec.setWidth_eq, BitVec.setWidth_eq]

/-- The table's row for division by zero tests the sign bit. -/
theorem divPair_table_zero (n : Word) :
    divPair .table n 0#32 = (n, if 0 ≤ n.toInt then 0xFFFFFFFF#32 else 1#32) := by
  have sign : n.getLsbD 31 = decide (n.toInt < 0) := BitVec.msb_eq_getLsbD_last n ▸ BitVec.msb_eq_toInt
  have row : divPair .table n 0#32 = (n, if n.getLsbD 31 then 1#32 else 0xFFFFFFFF#32) :=
    if_pos ((isDivCorner_iff n 0).mpr (.inl rfl))
  rw [row, sign]
  simp only [decide_eq_true_eq, ← Int.not_le, ite_not]

theorem divPair_table_overflow : divPair .table 0x80000000#32 0xFFFFFFFF#32 = (0, 0x80000000#32) := rfl

theorem divuPair_table_zero (n : Word) : divuPair .table n 0#32 = (n, 0xFFFFFFFF#32) := rfl

/-- DIV completes with its pair, in the corners as outside them. -/
theorem exec_div_of_pair {a b : RegNum} {s : State} {p : Word × Word}
    (h : divPair s.params.divCorner (s.reg a) (s.reg b) = p) :
    exec (.div a b) s = .next ((s.setHi p.1).setLo p.2) := h ▸ rfl

theorem exec_divu_of_pair {a b : RegNum} {s : State} {p : Word × Word}
    (h : divuPair s.params.divCorner (s.reg a) (s.reg b) = p) :
    exec (.divu a b) s = .next ((s.setHi p.1).setLo p.2) := h ▸ rfl

/-- Settles O9: outside the corners the pairs are remainder and quotient, which obey the law; in a corner they are
what DIV_CORNER gives, and its table at the default. -/
theorem divideResults : Obligations.DivideResults := by
  refine ⟨fun a b s hb => ⟨fun hn => ?div, ?divu⟩, fun a b s => ⟨fun hb => ?zero, fun ha hb => ?overflow⟩⟩
  case div =>
    exact ⟨_, exec_div_of_pair (divPair_regular _ hb hn), toInt_eq_sdiv_mul_add_srem hn, natAbs_srem_lt _ hb,
      srem_mul_self_nonneg _ _, changesOnly_setPair s _ _⟩
  case divu =>
    exact ⟨_, exec_divu_of_pair (divuPair_regular _ _ hb), toNat_eq_udiv_mul_add_umod _ _, toNat_umod_lt _ hb,
      changesOnly_setPair s _ _⟩
  case zero =>
    refine ⟨_, _, exec_div_of_pair rfl, exec_divu_of_pair rfl, changesOnly_setPair s _ _, changesOnly_setPair s _ _,
      fun table => ?_⟩
    simp [table, hb, divPair_table_zero, divuPair_table_zero]
  case overflow =>
    refine ⟨_, exec_div_of_pair rfl, changesOnly_setPair s _ _, fun table => ?_⟩
    simp [table, ha, hb, divPair_table_overflow]

end Sys2Proof.Machine

/-!
PROOFS. The statements about loads and stores (42_loadstore.md). First the bytes of a word under the masks and shifts of
the unaligned-word merges; then what an aligned access is on the bus, and what the merged accesses read and write; an
instruction's clause takes such an access and names its bytes.
-/

namespace Sys2Proof.Machine

/-! ## The bytes of a word -/

theorem getLsbD_byteOf (v : Word) (j : Nat) {i : Nat} (hi : i < 8) :
    (byteOf v j).getLsbD i = v.getLsbD (8 * j + i) := by
  rw [byteOf, BitVec.getLsbD_extractLsb', decide_eq_true hi, Bool.true_and]

theorem eq_of_byteOf_eq {v w : Word} (h : ∀ j, j < 4 → byteOf v j = byteOf w j) : v = w := by
  apply BitVec.eq_of_getLsbD_eq
  intro i hi
  have low : i % 8 < 8 := by omega
  have bit := congrArg (·.getLsbD (i % 8)) (h (i / 8) (by omega))
  simpa only [getLsbD_byteOf _ _ low, Nat.div_add_mod] using bit

theorem byteOf_or (x y : Word) (j : Nat) : byteOf (x ||| y) j = byteOf x j ||| byteOf y j := BitVec.extractLsb'_or

/-- A left shift by whole bytes moves them up, over zeros. -/
theorem byteOf_shiftLeft (x : Word) (n : Nat) {j : Nat} (hj : j < 4) :
    byteOf (x <<< (8 * n)) j = if n ≤ j then byteOf x (j - n) else 0#8 := by
  apply BitVec.eq_of_getLsbD_eq
  intro i hi
  have inWord : 8 * j + i < 32 := by omega
  rw [getLsbD_byteOf _ _ hi, BitVec.getLsbD_shiftLeft, decide_eq_true inWord, Bool.true_and]
  split
  case isTrue h =>
    have above : ¬8 * j + i < 8 * n := by omega
    have moved : 8 * j + i - 8 * n = 8 * (j - n) + i := by omega
    rw [getLsbD_byteOf _ _ hi, decide_eq_false above, moved, Bool.not_false, Bool.true_and]
  case isFalse h =>
    have below : 8 * j + i < 8 * n := by omega
    rw [decide_eq_true below, Bool.not_true, Bool.false_and, BitVec.getLsbD_zero]

/-- A right shift by whole bytes moves them down, under zeros. -/
theorem byteOf_ushiftRight (x : Word) (n j : Nat) :
    byteOf (x >>> (8 * n)) j = if j + n < 4 then byteOf x (j + n) else 0#8 := by
  apply BitVec.eq_of_getLsbD_eq
  intro i hi
  have moved : 8 * n + (8 * j + i) = 8 * (j + n) + i := by omega
  rw [getLsbD_byteOf _ _ hi, BitVec.getLsbD_ushiftRight, moved]
  split
  case isTrue h => rw [getLsbD_byteOf _ _ hi]
  case isFalse h => rw [BitVec.getLsbD_of_ge _ _ (by omega), BitVec.getLsbD_zero]

/-- The word whose low `n` bytes are ones: what the merges of R230 to R237 mask with. -/
def lowBytes (n : Nat) : Word := BitVec.ofNat 32 (2 ^ (8 * n) - 1)

theorem getLsbD_lowBytes (n : Nat) {i : Nat} (hi : i < 32) : (lowBytes n).getLsbD i = decide (i < 8 * n) := by
  rw [lowBytes, BitVec.getLsbD_ofNat, Nat.testBit_two_pow_sub_one, decide_eq_true hi, Bool.true_and]

theorem byteOf_and_lowBytes (x : Word) (n : Nat) {j : Nat} (hj : j < 4) :
    byteOf (x &&& lowBytes n) j = if j < n then byteOf x j else 0#8 := by
  apply BitVec.eq_of_getLsbD_eq
  intro i hi
  rw [getLsbD_byteOf _ _ hi, BitVec.getLsbD_and, getLsbD_lowBytes _ (by omega)]
  split
  case isTrue h => rw [getLsbD_byteOf _ _ hi, decide_eq_true (by omega), Bool.and_true]
  case isFalse h => rw [decide_eq_false (by omega), Bool.and_false, BitVec.getLsbD_zero]

theorem byteOf_and_not_lowBytes (x : Word) (n : Nat) {j : Nat} (hj : j < 4) :
    byteOf (x &&& ~~~lowBytes n) j = if j < n then 0#8 else byteOf x j := by
  apply BitVec.eq_of_getLsbD_eq
  intro i hi
  have inWord : 8 * j + i < 32 := by omega
  rw [getLsbD_byteOf _ _ hi, BitVec.getLsbD_and, BitVec.getLsbD_not, getLsbD_lowBytes _ inWord,
    decide_eq_true inWord, Bool.true_and]
  split
  case isTrue h => rw [decide_eq_true (by omega), Bool.not_true, Bool.and_false, BitVec.getLsbD_zero]
  case isFalse h => rw [getLsbD_byteOf _ _ hi, decide_eq_false (by omega), Bool.not_false, Bool.and_true]

theorem byteOf_wordAt (s : State) (a : Nat) {j : Nat} (hj : j < 4) : byteOf (s.wordAt a) j = s.byte (a + j) := by
  rw [← BitVec.toNat_inj, byteOf, toNat_field, State.wordAt, toNat_append_eq, toNat_append_eq, toNat_append_eq]
  interval_cases j <;> simp only [Nat.add_zero, Nat.reduceMul] <;> omega

/-! ## The merges of the unaligned-word instructions

Each keeps whole bytes of one word and shifts the other by whole bytes. A store's merge is the opposite load's, with the
lane counted from the other end. -/

theorem mergeLwl_eq {k : Nat} (hk : k < 4) (cur w : Word) :
    mergeLwl k cur w = (cur &&& lowBytes (3 - k)) ||| (w <<< (8 * (3 - k))) := by
  obtain rfl | partly : k = 3 ∨ k < 3 := by omega
  · simp [mergeLwl, lowBytes]
  · interval_cases k <;> rfl

theorem mergeLwr_eq {k : Nat} (hk : k < 4) (cur w : Word) :
    mergeLwr k cur w = (cur &&& ~~~lowBytes (4 - k)) ||| (w >>> (8 * k)) := by
  obtain rfl | partly : k = 0 ∨ 0 < k := by omega
  · simp [mergeLwr, lowBytes]
  · interval_cases k <;> rfl

theorem mergeSwl_eq {k : Nat} (hk : k < 4) (m v : Word) : mergeSwl k m v = mergeLwr (3 - k) m v := by
  interval_cases k <;> rfl

theorem mergeSwr_eq {k : Nat} (hk : k < 4) (m v : Word) : mergeSwr k m v = mergeLwl (3 - k) m v := by
  interval_cases k <;> rfl

theorem byteOf_mergeLwl {k j : Nat} (hk : k < 4) (hj : j < 4) (cur w : Word) :
    byteOf (mergeLwl k cur w) j = if 3 - k ≤ j then byteOf w (j + k - 3) else byteOf cur j := by
  rw [mergeLwl_eq hk, byteOf_or, byteOf_and_lowBytes _ _ hj, byteOf_shiftLeft _ _ hj]
  by_cases h : 3 - k ≤ j
  · have moved : j - (3 - k) = j + k - 3 := by omega
    rw [if_neg (by omega), if_pos h, if_pos h, BitVec.zero_or, moved]
  · rw [if_pos (by omega), if_neg h, if_neg h, BitVec.or_zero]

theorem byteOf_mergeLwr {k j : Nat} (hk : k < 4) (hj : j < 4) (cur w : Word) :
    byteOf (mergeLwr k cur w) j = if j + k ≤ 3 then byteOf w (j + k) else byteOf cur j := by
  rw [mergeLwr_eq hk, byteOf_or, byteOf_and_not_lowBytes _ _ hj, byteOf_ushiftRight]
  by_cases h : j + k ≤ 3
  · rw [if_pos h, if_pos (by omega), if_pos (by omega), BitVec.zero_or]
  · rw [if_neg h, if_neg (by omega), if_neg (by omega), BitVec.or_zero]

theorem byteOf_mergeSwl {k j : Nat} (hk : k < 4) (hj : j < 4) (m v : Word) :
    byteOf (mergeSwl k m v) j = if j ≤ k then byteOf v (j + 3 - k) else byteOf m j := by
  have moved : j + (3 - k) = j + 3 - k := by omega
  rw [mergeSwl_eq hk, byteOf_mergeLwr (by omega) hj, moved]
  exact if_congr (by omega) rfl rfl

theorem byteOf_mergeSwr {k j : Nat} (hk : k < 4) (hj : j < 4) (m v : Word) :
    byteOf (mergeSwr k m v) j = if k ≤ j then byteOf v (j - k) else byteOf m j := by
  have moved : j + (3 - k) - 3 = j - k := by omega
  rw [mergeSwr_eq hk, byteOf_mergeLwl (by omega) hj, moved]
  exact if_congr (by omega) rfl rfl

/-! ## Aligned accesses -/

theorem aligned_byte (va : Word) : misaligned va .byte = false := rfl

theorem aligned_half {va : Word} (h : va.toNat % 2 = 0) : misaligned va .half = false := by
  rw [misaligned_half, h, decide_eq_false_iff_not, not_not]

theorem aligned_word {va : Word} (h : va.toNat % 4 = 0) : misaligned va .word = false := by
  rw [misaligned_word, h, decide_eq_false_iff_not, not_not]

section
variable {va v : Word} {n : Width} {s u : State} {k : Word → State → Out}

theorem memRead_ok (ha : misaligned va n = false) (h : busRead (phys va) n s = .ok (v, u)) :
    memRead va n s k = k v u := by
  rw [memRead, ha, if_neg Bool.false_ne_true, withRead_ok h]

theorem memRead_error {e : Fault} (ha : misaligned va n = false) (h : busRead (phys va) n s = .error e) :
    memRead va n s k = .fault e := by
  rw [memRead, ha, if_neg Bool.false_ne_true, withRead_error h]

theorem memWrite_bus (ha : misaligned va n = false) (hi : s.isolated = false) :
    memWrite va n v s = busWrite (phys va) n v s := by
  rw [memWrite, ha, hi, if_neg Bool.false_ne_true, if_neg Bool.false_ne_true]

theorem memWrite_isolated (ha : misaligned va n = false) (hi : s.isolated = true) :
    memWrite va n v s = .next s := by
  rw [memWrite, ha, if_neg Bool.false_ne_true, if_pos hi]

end

theorem storeMerged_isolated {s : State} (hi : s.isolated = true) (merge : Nat → Word → Word → Word)
    (d a : RegNum) (imm : BitVec 16) : storeMerged merge d a imm s = .next s := if_pos hi

/-- Settles O13: an aligned access passes the alignment test, a store also that of SR.IsC, and what is left is the
bus. -/
theorem busAccess : Obligations.BusAccess := by
  refine ⟨fun d a imm s => ⟨fun v u h => ?byteRead, fun e h => ?byteError, fun al => ⟨fun v u h => ?halfRead,
    fun e h => ?halfError⟩, fun al => ⟨fun v u h => ?wordRead, fun e h => ?wordError⟩⟩,
    fun d a imm s => ⟨fun hi => ?bus, fun hi => ?isolated⟩⟩
  case byteRead => exact ⟨memRead_ok (aligned_byte _) h, memRead_ok (aligned_byte _) h⟩
  case byteError => exact ⟨memRead_error (aligned_byte _) h, memRead_error (aligned_byte _) h⟩
  case halfRead => exact ⟨memRead_ok (aligned_half al) h, memRead_ok (aligned_half al) h⟩
  case halfError => exact ⟨memRead_error (aligned_half al) h, memRead_error (aligned_half al) h⟩
  case wordRead => exact ⟨memRead_ok (aligned_word al) h, memRead_ok (aligned_word al) h⟩
  case wordError => exact ⟨memRead_error (aligned_word al) h, memRead_error (aligned_word al) h⟩
  case bus =>
    exact ⟨memWrite_bus (aligned_byte _) hi, fun al => memWrite_bus (aligned_half al) hi,
      fun al => ⟨memWrite_bus (aligned_word al) hi, memWrite_bus (aligned_word al) hi⟩⟩
  case isolated =>
    exact ⟨memWrite_isolated (aligned_byte _) hi, storeMerged_isolated hi _ d a imm, storeMerged_isolated hi _ d a imm,
      fun al => memWrite_isolated (aligned_half al) hi,
      fun al => ⟨memWrite_isolated (aligned_word al) hi, memWrite_isolated (aligned_word al) hi⟩⟩

/-! ## Loads from plain memory -/

theorem busRead_byte {pa : Word} {s : State} (h : plainAt pa .byte = true) :
    busRead pa .byte s = .ok ((s.byte pa.toNat).setWidth 32, s) := busRead_plain h

theorem busRead_half {pa : Word} {s : State} (h : plainAt pa .half = true) :
    busRead pa .half s = .ok ((s.halfAt pa.toNat).setWidth 32, s) := busRead_plain h

theorem busRead_word {pa : Word} {s : State} (h : plainAt pa .word = true) :
    busRead pa .word s = .ok (s.wordAt pa.toNat, s) := busRead_plain h

/-- Settles O12: a plain byte array answers with its bytes and changes nothing, so each clause is one of O13's; the
narrow values are cut from the zero-extended word without loss. -/
theorem plainLoads : Obligations.PlainLoads := by
  intro d a imm s
  obtain ⟨onByte, -, onHalf, onWord⟩ := busAccess.1 d a imm s
  refine ⟨fun hp => ?byte, fun hp al => ?half, fun hp al => (onWord al).1 _ _ (busRead_word hp)⟩
  case byte =>
    have loads := onByte _ _ (busRead_byte hp)
    rwa [BitVec.setWidth_setWidth_of_le _ (by decide), BitVec.setWidth_eq] at loads
  case half =>
    have loads := (onHalf al).1 _ _ (busRead_half hp)
    rwa [BitVec.setWidth_setWidth_of_le _ (by decide), BitVec.setWidth_eq] at loads

/-! ## Unaligned loads -/

theorem byteLane_eq_mod (va : Word) : byteLane va = va.toNat % 4 := by
  rw [byteLane, toNat_field]
  omega

theorem loadMerged_ok {merge : Nat → Word → Word → Word} {d a : RegNum} {imm : BitVec 16} {s u : State} {w : Word}
    (h : busRead (phys (wordBase (ea s a imm))) .word s = .ok (w, u)) : loadMerged merge d a imm s =
      .next (u.postLoad d (merge ((ea s a imm).toNat % 4) (mergeSource s d) w)) := by
  rw [loadMerged, withRead_ok h, byteLane_eq_mod]

/-- Settles O14: the bus read succeeds by hypothesis, and the bytes are those of the merge. -/
theorem unalignedLoads : Obligations.UnalignedLoads := by
  intro d a imm s u w ea k cur h
  have hk : k < 4 := Nat.mod_lt _ (by decide)
  exact ⟨⟨_, loadMerged_ok h, fun j hj => byteOf_mergeLwl hk hj cur w⟩,
    _, loadMerged_ok h, fun j hj => byteOf_mergeLwr hk hj cur w⟩

/-! ## The unaligned pair -/

theorem toNat_wordBase (va : Word) : (wordBase va).toNat = va.toNat - va.toNat % 4 := by
  have shifts : wordBase va = va >>> 2 <<< 2 := calc
    wordBase va = va &&& BitVec.allOnes 32 <<< 2 := rfl
    _ = va >>> 2 <<< 2 := BitVec.shiftLeft_ushiftRight.symm
  rw [shifts, BitVec.toNat_shiftLeft, BitVec.toNat_ushiftRight, Nat.shiftLeft_eq, Nat.shiftRight_eq_div_pow]
  omega

theorem plainAt_ram {pa : Word} {n : Width} (h : pa.toNat + n.bytes ≤ 0x200000) : plainAt pa n = true := by
  have hn : 0 < n.bytes := by cases n <;> decide
  have ram : resolve pa.toNat n.bytes = some ⟨0, 0x200000, .ram⟩ :=
    resolve_of_holds (by decide) hn ((Region.holds_iff _ _ _).mpr ⟨Nat.zero_le _, by omega⟩)
  simp [plainAt, owner, ram, Owner.takes]

/-- The aligned word around an address in RAM's low view. -/
theorem busRead_wordBase_ram {va : Word} (h : va.toNat < 0x200000) (s : State) :
    busRead (phys (wordBase va)) .word s = .ok (s.wordAt (va.toNat - va.toNat % 4), s) := by
  have base : (phys (wordBase va)).toNat = va.toNat - va.toNat % 4 := by
    rw [toNat_phys, toNat_wordBase, if_neg (by omega)]
  have inRam : (phys (wordBase va)).toNat + Width.word.bytes ≤ 0x200000 := by
    rw [base, Width.bytes]; omega
  rw [busRead_word (plainAt_ram inRam), base]

theorem loadMerged_ram {d a : RegNum} {imm : BitVec 16} {s : State} {A : Nat} (h : (ea s a imm).toNat = A)
    (hA : A < 0x200000) (merge : Nat → Word → Word → Word) : loadMerged merge d a imm s =
      .next (s.postLoad d (merge (A % 4) (mergeSource s d) (s.wordAt (A - A % 4)))) := by
  subst h
  exact loadMerged_ok (busRead_wordBase_ram hA s)

/-- The next instruction merges into what a load has posted (R232). -/
theorem mergeSource_latch_postLoad (s : State) (d : RegNum) (v : Word) :
    mergeSource (s.postLoad d v).latch d = v := if_pos rfl

/-- LWL takes the bytes of the word at `A` that lie in the aligned word of `A + 3`, LWR those in that of `A`. -/
theorem mergeLwr_mergeLwl (s : State) (A : Nat) (cur : Word) :
    mergeLwr (A % 4) (mergeLwl ((A + 3) % 4) cur (s.wordAt (A + 3 - (A + 3) % 4))) (s.wordAt (A - A % 4)) =
      s.wordAt A := by
  have lane (n : Nat) : n % 4 < 4 := Nat.mod_lt n (by decide)
  apply eq_of_byteOf_eq
  intro j hj
  rw [byteOf_mergeLwr (lane A) hj, byteOf_wordAt _ _ hj]
  by_cases low : j + A % 4 ≤ 3
  · have place : A - A % 4 + (j + A % 4) = A + j := by omega
    rw [if_pos low, byteOf_wordAt _ _ (by omega), place]
  · have place : A + 3 - (A + 3) % 4 + (j + (A + 3) % 4 - 3) = A + j := by omega
    rw [if_neg low, byteOf_mergeLwl (lane _) hj, if_pos (by omega), byteOf_wordAt _ _ (by omega), place]

/-- Settles O15: LWR merges into the value LWL has posted, and both read the memory the pair found. -/
theorem unalignedPair : Obligations.UnalignedPair := by
  intro d a s A hA hlt
  have upper : (ea s a 3#16).toNat = A + 3 := by
    rw [ea, BitVec.toNat_add, hA]
    exact Nat.mod_eq_of_lt (show A + 3 < 2 ^ 32 by omega)
  have lower : (ea s a 0#16).toNat = A := (congrArg BitVec.toNat (BitVec.add_zero _)).trans hA
  refine ⟨_, _, _, loadMerged_ram upper (by omega) mergeLwl, rfl,
    loadMerged_ram (s := (s.postLoad d _).latch) lower (by omega) mergeLwr, ?_⟩
  rw [mergeSource_latch_postLoad, State.postLoad_pl]
  exact congrArg (fun w => some (d, w)) (mergeLwr_mergeLwl s A _)

/-! ## Stores -/

theorem busWrite_ttySink (v : Word) (s : State) : busWrite 0x1F802023#32 .byte v s =
    .next ((storeWrite 0x1F802023#32 .byte v s).setHost { s.host with tty := s.host.tty ++ [byteOf v 0] }) := by
  have latch : owner 0x1F802023#32 .byte = some ⟨0x1F802000, 0x80, .stub⟩ := by decide
  rw [busWrite, latch]
  exact congrArg Host.Outcome.next (if_pos ⟨rfl, rfl⟩)

/-- Settles O16: an aligned store is the bus write of the register (O13), which stores the bytes; at TTY_SINK the
text stream is the host's, and memory is as after any store. -/
theorem plainStores : Obligations.PlainStores := by
  intro d a imm s ea pa hmem hi
  obtain ⟨sb, sh, sw⟩ := (busAccess.2 d a imm s).1 hi
  refine ⟨fun h => ⟨_, sb.trans (busWrite_storable h), storeWrite_stored hmem⟩,
    fun h al => ⟨_, (sh al).trans (busWrite_storable h), storeWrite_stored hmem⟩,
    fun h al => ⟨⟨_, (sw al).1.trans (busWrite_storable h), storeWrite_stored hmem⟩,
      ⟨_, (sw al).2.trans (busWrite_storable h), storeWrite_stored hmem⟩⟩, fun h => ?ttySink⟩
  case ttySink =>
    obtain ⟨frame, inside, outside⟩ :=
      storeWrite_stored (pa := 0x1F802023#32) (n := .byte) (v := s.reg d) hmem
    have tapped := (congrArg (busWrite · .byte (s.reg d) s) h).trans (busWrite_ttySink (s.reg d) s)
    refine ⟨_, sb.trans tapped, ?frame, rfl, inside 0 Nat.zero_lt_one,
      fun c hc => outside c (Nat.lt_or_gt_of_ne hc)⟩
    exact changesOnly_trans (changesOnly_mono frame (by simp)) (changesOnly_mono (changesOnly_setHost _ _) (by simp))

/-! ## Unaligned stores -/

theorem storeMerged_storable {merge : Nat → Word → Word → Word} {d a : RegNum} {imm : BitVec 16} {s : State}
    (hi : s.isolated = false) (h : storableAt (phys (wordBase (ea s a imm))) .word = true) :
    storeMerged merge d a imm s =
      .next (storeWrite (phys (wordBase (ea s a imm))) .word
        (merge ((ea s a imm).toNat % 4) (s.wordAt (phys (wordBase (ea s a imm))).toNat) (s.reg d)) s) := by
  rw [storeMerged, hi, if_neg Bool.false_ne_true, withRead_ok (busRead_word (plainAt_of_storableAt h)),
    busWrite_storable h, byteLane_eq_mod]

/-- A word stored over the word that was there, with the bytes of `P` replaced, changes those bytes alone. -/
theorem byte_storeWrite_merged {pa v : Word} {s : State} {P : Nat → Prop} [DecidablePred P] {f : Nat → Byte}
    (hmem : s.memoryCanonical = true)
    (hv : ∀ j, j < 4 → byteOf v j = if P j then f j else byteOf (s.wordAt pa.toNat) j) (c : Nat) :
    (storeWrite pa .word v s).byte c =
      if pa.toNat ≤ c ∧ c < pa.toNat + 4 ∧ P (c - pa.toNat) then f (c - pa.toNat) else s.byte c := by
  by_cases hc : pa.toNat ≤ c ∧ c < pa.toNat + 4
  · obtain ⟨j, rfl⟩ := Nat.exists_eq_add_of_le hc.1
    have hj : j < 4 := by omega
    have stored : (storeWrite pa .word v s).byte (pa.toNat + j) = byteOf v j :=
      Memory.readByte_write_in pa.toNat .word v hmem hj
    rw [stored, hv j hj, byteOf_wordAt _ _ hj, Nat.add_sub_cancel_left]
    exact if_congr (by simp [hj]) rfl rfl
  · rw [if_neg fun h => hc ⟨h.1, h.2.1⟩]
    exact Memory.readByte_write_other s.mem .word v (show c < pa.toNat ∨ pa.toNat + 4 ≤ c by omega)

/-- Settles O17: the merge of the word read with the register is stored over that word, byte by byte. -/
theorem unalignedStores : Obligations.UnalignedStores := by
  intro d a imm s ea k base hmem hi h
  have hk : k < 4 := Nat.mod_lt _ (by decide)
  refine ⟨⟨_, storeMerged_storable hi h, changesOnly_setMem s _, fun c => ?swl⟩,
    _, storeMerged_storable hi h, changesOnly_setMem s _, fun c => ?swr⟩
  case swl =>
    exact (byte_storeWrite_merged (pa := base) hmem (fun j hj => byteOf_mergeSwl hk hj _ _) c).trans
      (if_congr (by omega) rfl rfl)
  case swr =>
    exact (byte_storeWrite_merged (pa := base) hmem (fun j hj => byteOf_mergeSwr hk hj _ _) c).trans
      (if_congr (by omega) rfl rfl)

end Sys2Proof.Machine

/-!
PROOFS. The statement about branches and jumps (43_branch_jump.md). First the two targets as numbers and the conditions
as comparisons; an instruction's clause is then a branch under its condition.
-/

namespace Sys2Proof.Machine

/-! ## Targets -/

/-- The target `(pc + 4) + sext(imm || 00)` of R251 as exact arithmetic on the signed offset. -/
theorem branchTarget_eq_ofInt (pc : Word) (imm : BitVec 16) :
    branchTarget pc imm = BitVec.ofInt 32 ((pc.toNat : Int) + 4 + 4 * imm.toInt) := by
  have offset : simm imm <<< 2 = 4#32 * simm imm := (BitVec.shiftLeft_eq_mul_twoPow _ 2).trans (BitVec.mul_comm _ _)
  rw [branchTarget, offset, BitVec.ofInt_add, BitVec.ofInt_add, BitVec.ofInt_mul, BitVec.ofInt_natCast,
    BitVec.ofNat_toNat, BitVec.setWidth_eq]
  rfl

/-- The region of R252 is the delay slot's upper four bits. -/
theorem jumpTarget_eq_ofNat (pc : Word) (t : BitVec 26) :
    jumpTarget pc t = BitVec.ofNat 32 ((pc + 4#32).toNat / 2 ^ 28 * 2 ^ 28 + t.toNat * 4) := by
  rw [← BitVec.toNat_inj, jumpTarget, toNat_append_eq, toNat_append_eq, toNat_field, BitVec.toNat_ofNat,
    BitVec.toNat_ofNat]
  omega

/-! ## Conditions -/

theorem getLsbD_31_iff_neg (x : Word) : x.getLsbD 31 = true ↔ x.toInt < 0 := by
  have sign : x.getLsbD 31 = decide (x.toInt < 0) := (BitVec.msb_eq_getLsbD_last x).symm.trans BitVec.msb_eq_toInt
  rw [sign, decide_eq_true_iff]

theorem not_getLsbD_31_iff_nonneg (x : Word) : (!x.getLsbD 31) = true ↔ 0 ≤ x.toInt := by
  rw [Bool.not_eq_true', ← Bool.not_eq_true, getLsbD_31_iff_neg, Int.not_lt]

/-- A branch to its target as the statement writes it, under its condition as the statement writes it. -/
theorem branchIf_of_iff {c : Bool} {P : Prop} [Decidable P] {v w : Word} (hc : c = true ↔ P) (hv : v = w)
    (s : State) : branchIf c v s = .next (if P then s.postBranch w else s) := by
  subst hv
  exact congrArg Host.Outcome.next (if_congr hc rfl rfl)

/-! ## The twelve instructions -/

/-- Settles O21: every form is a branch, of the state with the link written where it links, and its condition and target
are those of the state before. -/
theorem branchesAndJumps : Obligations.BranchesAndJumps := by
  refine ⟨fun a b imm s => ?branches, fun d a imm t26 s => ?linksAndJumps⟩
  case branches =>
    have target := branchTarget_eq_ofInt s.pc imm
    refine ⟨?beq, ?bne, ?blez, ?bgtz, ?bltz, ?bgez⟩
    case beq => exact branchIf_of_iff beq_iff_eq target s
    case bne => rw [← ite_not]; exact branchIf_of_iff bne_iff_ne target s
    case blez => exact branchIf_of_iff BitVec.sle_iff_toInt_le target s
    case bgtz => exact branchIf_of_iff BitVec.slt_iff_toInt_lt target s
    case bltz => exact branchIf_of_iff (getLsbD_31_iff_neg _) target s
    case bgez => exact branchIf_of_iff (not_getLsbD_31_iff_nonneg _) target s
  case linksAndJumps =>
    have target := branchTarget_eq_ofInt s.pc imm
    have region := jumpTarget_eq_ofNat s.pc t26
    refine ⟨?bltzal, ?bgezal, ?j, ?jal, rfl, rfl⟩
    case bltzal => exact branchIf_of_iff (getLsbD_31_iff_neg _) target _
    case bgezal => exact branchIf_of_iff (not_getLsbD_31_iff_nonneg _) target _
    case j => rw [← region]; rfl
    case jal => rw [← region]; rfl

end Sys2Proof.Machine

/-!
PROOFS. The statements about coprocessor moves and the return from an exception (44_system_cop.md). First the register
numbers that exist, and CAUSE as MFC0 reads it and as MTC0 leaves it; then RFE's word, and its pop of what an entry
pushed.
-/

namespace Sys2Proof.Machine

/-! ## Coprocessor-0 registers -/

section
variable {r : RegNum} (hr : r.toNat ∉ [3, 5, 6, 7, 8, 9, 11, 12, 13, 14, 15])
include hr

theorem readCop0_eq_none (s : State) : s.readCop0 r = none := by
  unfold State.readCop0
  split
  case h_12 => rfl
  all_goals simp_all

theorem writeCop0_eq_none (c : Cop0) (v : Word) : State.writeCop0 c r v = none := by
  unfold State.writeCop0
  split
  case h_12 => rfl
  all_goals simp_all

theorem exec_mfc0_halts (d : RegNum) (s : State) :
    ∃ w, exec (.mfc0 d r) s = .fault (.unknownOpcode .processor s.pc w) :=
  ⟨_, by rw [exec, execMfc0, readCop0_eq_none hr]⟩

theorem exec_mtc0_halts (a : RegNum) (s : State) :
    ∃ w, exec (.mtc0 a r) s = .fault (.unknownOpcode .processor s.pc w) :=
  ⟨_, by rw [exec, execMtc0, writeCop0_eq_none hr]⟩

end

theorem exec_mtc0_of_some {a r : RegNum} {s : State} {c : Cop0} (h : State.writeCop0 s.cop0 r (s.reg a) = some c) :
    exec (.mtc0 a r) s = .next (s.setCop0 c) := by
  rw [exec, execMtc0, h]

/-! ## CAUSE (10_state.md R30) -/

/-- A field of stored bits that leaves the live one out reads as it is stored. -/
theorem extractLsb'_readCause (s : State) {a n : Nat}
    (stored : (0xB000037C#32).extractLsb' a n = BitVec.allOnes n) (line : (0x400#32).extractLsb' a n = 0) :
    s.readCause.extractLsb' a n = s.cop0.cause.extractLsb' a n := by
  rw [State.readCause, BitVec.extractLsb'_or, BitVec.extractLsb'_and, stored, BitVec.and_allOnes]
  cases s.ip2 <;> simp [line]

theorem getLsbD_10_readCause (s : State) :
    s.readCause.getLsbD 10 = decide (s.intc.istat &&& s.intc.imask ≠ 0) := by
  have line : s.ip2 = decide (s.intc.istat &&& s.intc.imask ≠ 0) := Bool.eq_iff_iff.2 (by simp [State.ip2])
  rw [← line]
  cases h : s.ip2 <;> simp [State.readCause, h]

theorem getLsbD_31_readCause (s : State) : s.readCause.getLsbD 31 = s.cop0.cause.getLsbD 31 := by
  cases h : s.ip2 <;> simp [State.readCause, h]

theorem readCause_reserved (s : State) : s.readCause &&& 0x4FFFF883#32 = 0 := by
  have line : (if s.ip2 then 0x400#32 else 0) &&& 0x4FFFF883#32 = 0 := by cases s.ip2 <;> rfl
  have stored : 0xB000037C#32 &&& 0x4FFFF883#32 = 0#32 := rfl
  exact or_mask_eq_zero (by rw [BitVec.and_assoc, stored, BitVec.and_zero]; rfl) line

/-- MTC0 merges the two software requests of the written word into CAUSE (44_system_cop.md R284). -/
theorem writeCop0_cause (c : Cop0) (v : Word) :
    ∃ m, State.writeCop0 c 13#5 v = some { c with cause := m } ∧
      m.extractLsb' 8 2 = v.extractLsb' 8 2 ∧ m &&& 0xFFFFFCFF#32 = c.cause &&& 0xFFFFFCFF#32 := by
  have outside : (~~~0x300#32).extractLsb' 8 2 = 0#2 := rfl
  have inside : (0x300#32).extractLsb' 8 2 = BitVec.allOnes 2 := rfl
  have kept : ~~~0x300#32 &&& 0xFFFFFCFF#32 = 0xFFFFFCFF#32 := rfl
  have dropped : 0x300#32 &&& 0xFFFFFCFF#32 = 0#32 := rfl
  refine ⟨_, rfl, ?requests, ?rest⟩
  case requests =>
    rw [BitVec.extractLsb'_or, BitVec.extractLsb'_and, BitVec.extractLsb'_and, outside, inside, BitVec.and_zero,
      BitVec.zero_or, BitVec.and_allOnes]
  case rest =>
    rw [BitVec.and_or_distrib_right, BitVec.and_assoc, BitVec.and_assoc, kept, dropped, BitVec.and_zero,
      BitVec.or_zero]

/-! ## The moves of coprocessor 0 -/

/-- Settles O23: the number selects the case of the read and of the write, by evaluation; of CAUSE, the word read and
the word stored have the fields the statement names. -/
theorem cop0Moves : Obligations.Cop0Moves := by
  refine ⟨fun d r s => ?mfc0, fun a r s => ?mtc0⟩
  case mfc0 =>
    have code : s.readCause.extractLsb' 2 5 = s.cop0.cause.extractLsb' 2 5 := extractLsb'_readCause s rfl rfl
    have requests : s.readCause.extractLsb' 8 2 = s.cop0.cause.extractLsb' 8 2 := extractLsb'_readCause s rfl rfl
    exact ⟨rfl, rfl, rfl, rfl, rfl, rfl, rfl, rfl, rfl, rfl,
      ⟨s.readCause, rfl, getLsbD_10_readCause s, code, getLsbD_31_readCause s, requests, readCause_reserved s⟩,
      fun hr => exec_mfc0_halts hr d s⟩
  case mtc0 =>
    obtain ⟨m, written, fields⟩ := writeCop0_cause s.cop0 (s.reg a)
    exact ⟨rfl, rfl, rfl, rfl, rfl, rfl, rfl, ⟨m, exec_mtc0_of_some written, fields⟩, rfl, rfl, rfl,
      fun hr => exec_mtc0_halts hr a s⟩

/-! ## RFE -/

theorem decodeCpu_eq_rfe_iff (w : Word) : decodeCpu w = .ok .rfe ↔ w = 0x42000010#32 := by
  refine ⟨fun h => ?only, fun h => ?the⟩
  case only => exact (List.cons.inj (decodeCpu_encodedAs .rfe h)).1.symm
  case the => subst h; rfl

theorem raise_sr {e : Exc} {s t : State} (h : raise e s = .next t) : t.cop0.sr = pushSr s.cop0.sr := by
  cases h; rfl

/-- The pop reads `SR[5:2]`, where the push put `SR[3:0]`. -/
theorem popSr_pushSr (sr : Word) : (popSr (pushSr sr)).extractLsb' 0 4 = sr.extractLsb' 0 4 := by
  calc (popSr (pushSr sr)).extractLsb' 0 4
      = (pushSr sr).extractLsb' 2 4 := (popSr_fields _).1
    _ = ((pushSr sr).extractLsb' 0 6).extractLsb' 2 4 := (BitVec.extractLsb'_extractLsb'_of_le (by decide)).symm
    _ = (sr.extractLsb' 0 4 ++ 0#2).extractLsb' 2 4 := by rw [(pushSr_fields sr).1]
    _ = sr.extractLsb' 0 4 := BitVec.extractLsb'_append_eq_left

/-- Settles O24: the decoder is exact on RFE's word, and RFE pops the SR that an entry pushed. -/
theorem Rfe.returnFromException : Obligations.ReturnFromException := by
  refine ⟨decodeCpu_eq_rfe_iff, fun s => ⟨_, rfl, popSr_fields s.cop0.sr⟩, fun e s t u hraise hrfe => ?_⟩
  have popped : u.cop0.sr = popSr t.cop0.sr := by cases hrfe; rfl
  rw [popped, raise_sr hraise]
  exact popSr_pushSr s.cop0.sr

/-! ## Coprocessor 2 -/

/-- Settles O26: each of the four moves is defined as the statement writes it. -/
theorem cop2Moves : Obligations.Cop2Moves := fun _ _ _ => ⟨rfl, rfl, rfl, rfl⟩

end Sys2Proof.Machine

/-!
PROOFS. The statements about coprocessor 2's registers and clamps (45_gte_state_arith.md). First the two halves of a
word and the views IRGB and LZCR; then what a register reads after a write; then FLAG bit by bit, and the clamps that
set its bits.
-/

namespace Sys2Proof.Machine

/-! ## Halves of a word -/

theorem pair_halves (v : Word) : pair (highHalf v) (lowHalf v) = v :=
  (BitVec.extractLsb'_append_extractLsb'_eq_extractLsb' rfl).trans BitVec.extractLsb'_eq_self

theorem lowHalf_eq_setWidth (v : Word) : lowHalf v = v.setWidth 16 :=
  (BitVec.setWidth_eq_extractLsb' (by decide)).symm

/-! ## The colour view IRGB (R322, R323) -/

/-- A component that IRGB wrote, five bits that stand seven places up in IR, is read back. -/
theorem c5_shiftLeft (x : BitVec 5) : c5 (x.setWidth 16 <<< 7) = x.setWidth 32 := by
  revert x
  decide

theorem setWidth_setWidth_15 (v : Word) : (v.setWidth 15).setWidth 32 = v &&& 0x7FFF#32 := by
  rw [← BitVec.toNat_inj, BitVec.toNat_setWidth_of_le (by decide), BitVec.toNat_setWidth]
  exact (Nat.and_two_pow_sub_one_eq_mod v.toNat 15).symm

/-- The three components read back side by side are the low 15 bits. -/
theorem irgb_writeData (g : Gte) (v : Word) : (g.writeData 28#5 v).irgb = v &&& 0x7FFF#32 := by
  calc (g.writeData 28#5 v).irgb
      = c5 ((v.extractLsb' 0 5).setWidth 16 <<< 7) ||| c5 ((v.extractLsb' 5 5).setWidth 16 <<< 7) <<< 5 |||
          c5 ((v.extractLsb' 10 5).setWidth 16 <<< 7) <<< 10 := rfl
    _ = (v.extractLsb' 10 5).setWidth 32 <<< 10 ||| (v.extractLsb' 5 5).setWidth 32 <<< 5 |||
          (v.extractLsb' 0 5).setWidth 32 := by
      rw [c5_shiftLeft, c5_shiftLeft, c5_shiftLeft, BitVec.or_comm, BitVec.or_comm (BitVec.setWidth ..),
        BitVec.or_assoc]
    _ = (v.extractLsb' 10 5 ++ v.extractLsb' 5 5 ++ v.extractLsb' 0 5).setWidth 32 := by
      rw [BitVec.setWidth_append_append_eq_shiftLeft_setWidth_or]
    _ = (v.setWidth 15).setWidth 32 := by
      simp only [BitVec.extractLsb'_append_extractLsb'_eq_extractLsb',
        BitVec.setWidth_eq_extractLsb' (show 15 ≤ 32 by decide)]
    _ = v &&& 0x7FFF#32 := setWidth_setWidth_15 v

/-! ## The leading count LZCR (R324) -/

/-- The count passes zero bits only, and stops at a one bit. -/
theorem leadingZeros_spec (n v : Nat) :
    leadingZeros n v ≤ n ∧ (∀ k, k < leadingZeros n v → v.testBit (n - 1 - k) = false) ∧
      (leadingZeros n v < n → v.testBit (n - 1 - leadingZeros n v) = true) := by
  induction n with
  | zero => exact ⟨Nat.le_refl 0, fun k hk => absurd hk (Nat.not_lt_zero k), fun h => absurd h (Nat.lt_irrefl 0)⟩
  | succ n ih =>
    obtain ⟨le, zeros, one⟩ := ih
    rw [leadingZeros]
    cases top : v.testBit n with
    | true => simp [top]
    | false =>
      have below (k : Nat) : n + 1 - 1 - (1 + k) = n - 1 - k := by omega
      simp only [Bool.false_eq_true, if_false, below]
      refine ⟨by omega, fun k hk => ?_, fun h => one (by omega)⟩
      cases k with
      | zero => exact top
      | succ k => rw [Nat.add_comm k 1, below]; exact zeros k (by omega)

/-- The number whose leading zeros are counted has a one bit where LZCS differs from its sign bit. -/
theorem testBit_signFolded (v : Word) {i : Nat} (hi : i < 32) :
    (if v.getLsbD 31 then (~~~v).toNat else v.toNat).testBit i = (v.getLsbD i ^^ v.getLsbD 31) := by
  cases sign : v.getLsbD 31 with
  | true => rw [if_pos rfl, BitVec.testBit_toNat, BitVec.getLsbD_not, decide_eq_true hi, Bool.true_and, Bool.xor_true]
  | false => rw [if_neg Bool.false_ne_true, BitVec.testBit_toNat, Bool.xor_false]

theorem leadingCount_spec (v : Word) :
    leadingCount v ≤ 32 ∧ (∀ k, k < leadingCount v → v.getLsbD (31 - k) = v.getLsbD 31) ∧
      (leadingCount v < 32 → v.getLsbD (31 - leadingCount v) = !v.getLsbD 31) := by
  have bit (k : Nat) := testBit_signFolded v (show 31 - k < 32 by omega)
  obtain ⟨le, zeros, one⟩ := leadingZeros_spec 32 (if v.getLsbD 31 then (~~~v).toNat else v.toNat)
  refine ⟨le, fun k hk => ?same, fun h => ?differs⟩
  case same => exact bne_eq_false_iff_eq.1 ((bit k).symm.trans (zeros k hk))
  case differs => exact Bool.eq_not_of_ne (bne_iff_ne.1 ((bit _).symm.trans (one h)))

/-- The sign bit does not differ from itself, so the count does not stop there. -/
theorem leadingCount_pos (v : Word) : 1 ≤ leadingCount v := by
  by_contra none
  have zero : leadingCount v = 0 := by omega
  obtain ⟨-, -, differs⟩ := leadingCount_spec v
  rw [zero] at differs
  exact (Bool.eq_not_self _).1 (differs (by decide))

/-- Settles O28: the register holds the count, which 32 bits do not truncate. -/
theorem Gte.leadingCount : Obligations.LeadingCount := by
  intro g v n
  obtain ⟨le, same, differs⟩ := leadingCount_spec v
  have count : n = Machine.leadingCount v := Nat.mod_eq_of_lt (Nat.lt_of_le_of_lt le (by decide))
  rw [count]
  exact ⟨leadingCount_pos v, le, same, differs⟩

/-! ## Data registers (R322, R323) -/

section
variable {n : RegNum} (g : Gte) (v : Word)

theorem flag_writeData (n : RegNum) : (g.writeData n v).flag = g.flag := by
  unfold Gte.writeData
  split <;> rfl

theorem readData_writeData_word
    (h : n.toNat ∈ [0, 2, 4, 6, 12, 13, 14, 15, 20, 21, 22, 23, 24, 25, 26, 27, 30]) :
    (g.writeData n v).readData n = v := by
  have halves := pair_halves v
  unfold Gte.readData Gte.writeData
  generalize n.toNat = k at h
  fin_cases h
  exacts [halves, halves, halves, rfl, halves, halves, halves, halves, rfl, rfl, rfl, rfl, rfl, rfl, rfl, rfl, rfl]

theorem readData_writeData_signed (h : n.toNat ∈ [1, 3, 5, 8, 9, 10, 11]) :
    (g.writeData n v).readData n = sx16 (lowHalf v) := by
  unfold Gte.readData Gte.writeData
  generalize n.toNat = k at h
  fin_cases h <;> rfl

theorem readData_writeData_unsigned (h : n.toNat ∈ [7, 16, 17, 18, 19]) :
    (g.writeData n v).readData n = zx16 (lowHalf v) := by
  unfold Gte.readData Gte.writeData
  generalize n.toNat = k at h
  fin_cases h <;> rfl

end

/-! ## Control registers (R325 to R327)

A write to one of them is a write to one place of the list of all 32, which is the whole frame. -/

/-- The five control registers of a matrix. -/
def Mat.words (m : Mat) : List Word :=
  [pair m.r1.y m.r1.x, pair m.r2.x m.r1.z, pair m.r2.z m.r2.y, pair m.r3.y m.r3.x, sx16 m.r3.z]

/-- The three control registers of a vector. -/
def Vec32.words (v : Vec32) : List Word := [v.x, v.y, v.z]

/-- The 32 control registers as they read, in order. -/
def Gte.ctrlWords (g : Gte) : List Word :=
  g.rt.words ++ g.tr.words ++ g.llm.words ++ g.bk.words ++ g.lcm.words ++ g.fc.words ++
    [g.ofx, g.ofy, sx16 g.h, sx16 g.dqa, g.dqb, sx16 g.zsf3, sx16 g.zsf4, readFlag g.flag]

theorem Gte.getElem?_ctrlWords (g : Gte) (n : RegNum) : g.ctrlWords[n.toNat]? = some (g.readCtrl n) := by
  have lt := n.isLt
  unfold Gte.readCtrl
  generalize n.toNat = k at lt ⊢
  interval_cases k <;> rfl

theorem Gte.ctrlWords_writeCtrl (g : Gte) (n : RegNum) (v : Word) :
    (g.writeCtrl n v).ctrlWords = g.ctrlWords.set n.toNat ((g.writeCtrl n v).readCtrl n) := by
  have lt := n.isLt
  unfold Gte.readCtrl Gte.writeCtrl
  generalize n.toNat = k at lt ⊢
  interval_cases k <;> rfl

theorem Gte.readCtrl_writeCtrl_other {g : Gte} {n m : RegNum} {v : Word} (h : m ≠ n) :
    (g.writeCtrl n v).readCtrl m = g.readCtrl m := by
  have apart : n.toNat ≠ m.toNat := fun e => h (BitVec.eq_of_toNat_eq e.symm)
  have read := (g.writeCtrl n v).getElem?_ctrlWords m
  rw [ctrlWords_writeCtrl, List.getElem?_set_ne apart, getElem?_ctrlWords] at read
  exact (Option.some.inj read).symm

theorem Gte.readCtrl_writeCtrl_same (g : Gte) (n : RegNum) (v : Word) : (g.writeCtrl n v).readCtrl n =
    if n.toNat ∈ [4, 12, 20, 26, 27, 29, 30] then sx16 (lowHalf v)
      else if n.toNat = 31 then readFlag (v.extractLsb' 12 19) else v := by
  have halves := pair_halves v
  have lt := n.isLt
  unfold Gte.readCtrl Gte.writeCtrl
  generalize n.toNat = k at lt ⊢
  interval_cases k
  exacts [halves, halves, halves, halves, rfl, rfl, rfl, rfl,
    halves, halves, halves, halves, rfl, rfl, rfl, rfl,
    halves, halves, halves, halves, rfl, rfl, rfl, rfl,
    rfl, rfl, rfl, rfl, rfl, rfl, rfl, rfl]

/-- A write to FLAG keeps bits 30..12 of the word, and bit 31 is computed from them (R330). -/
theorem readFlag_extractLsb' (v : Word) : readFlag (v.extractLsb' 12 19) =
    v &&& 0x7FFFF000#32 ||| if v &&& 0x7F87E000#32 = 0 then 0 else 0x80000000#32 := by
  have parts : v.extractLsb' 31 1 ++ v.extractLsb' 12 19 ++ v.extractLsb' 0 12 = v := by
    simp only [BitVec.extractLsb'_append_extractLsb'_eq_extractLsb', BitVec.extractLsb'_eq_self]
  have stored : 0#1 ++ v.extractLsb' 12 19 ++ 0#12 = v &&& 0x7FFFF000#32 := by
    calc 0#1 ++ v.extractLsb' 12 19 ++ 0#12
        = (v.extractLsb' 31 1 ++ v.extractLsb' 12 19 ++ v.extractLsb' 0 12) &&&
            (0#1 ++ BitVec.allOnes 19 ++ 0#12) := by
          rw [BitVec.and_append, BitVec.and_append, BitVec.and_zero, BitVec.and_zero, BitVec.and_allOnes]
      _ = v &&& 0x7FFFF000#32 := congrArg (· &&& 0x7FFFF000#32) parts
  have error : v &&& 0x7FFFF000#32 &&& 0x7F87E000#32 = v &&& 0x7F87E000#32 := BitVec.and_assoc _ _ _
  rw [readFlag, stored, error]
  by_cases h : v &&& 0x7F87E000#32 = 0#32 <;> simp [h]

/-- Settles O27: each class of data registers reads back what its width keeps, and a control write changes its own place
of the list. -/
theorem gteRegisters : Obligations.GteRegisters := by
  have signed (v : Word) : (v.setWidth 16).signExtend 32 = sx16 (lowHalf v) :=
    congrArg sx16 (lowHalf_eq_setWidth v).symm
  have unsigned (v : Word) : (v.setWidth 16).setWidth 32 = zx16 (lowHalf v) :=
    congrArg zx16 (lowHalf_eq_setWidth v).symm
  refine ⟨fun g n v => ?data, fun g n m v => ⟨?ctrl, Gte.readCtrl_writeCtrl_other⟩⟩
  case data =>
    refine ⟨flag_writeData g v n, readData_writeData_word g v, ?signed, ?unsigned, ?irgb, ?readOnly, ?fifo⟩
    case signed => rw [signed]; exact readData_writeData_signed g v
    case unsigned => rw [unsigned]; exact readData_writeData_unsigned g v
    case irgb => rintro rfl; exact ⟨irgb_writeData g v, irgb_writeData g v⟩
    case readOnly => rintro (rfl | rfl) <;> rfl
    case fifo => rintro rfl; exact ⟨rfl, rfl⟩
  case ctrl =>
    rw [Gte.readCtrl_writeCtrl_same, readFlag_extractLsb', signed]
    exact if_congr Iff.rfl rfl (if_congr (BitVec.toNat_inj (y := 31#5)) rfl rfl)

/-! ## FLAG bit by bit (R330, R331) -/

/-- Below the computed bit 31, FLAG reads its stored bits at 30..12 and 0 at 11..0. -/
theorem getLsbD_readFlag (f : BitVec 19) {n : Nat} (hn : n < 31) :
    (readFlag f).getLsbD n = (decide (12 ≤ n) && f.getLsbD (n - 12)) := by
  have stored : (0#1 ++ f ++ 0#12).getLsbD n = (decide (12 ≤ n) && f.getLsbD (n - 12)) := by
    rw [BitVec.getLsbD_append, BitVec.getLsbD_append]
    by_cases low : n < 12
    · simp [low, Nat.not_le.2 low]
    · simp [low, Nat.not_lt.1 low, show n - 12 < 19 by omega]
  have computed : (0x80000000#32).getLsbD n = false :=
    (BitVec.getLsbD_twoPow 31 n).trans (by simp [Nat.ne_of_gt hn])
  rw [readFlag, apply_ite (BitVec.getLsbD · n), BitVec.getLsbD_or, computed, Bool.or_false, ite_self]
  exact stored

theorem getLsbD_setFlagBit (f : BitVec 19) (on : Bool) {k i : Nat} (hi : i < 19) :
    (setFlagBit f k on).getLsbD i = (f.getLsbD i || (decide (i = k - 12) && on)) := by
  have shifted : ((BitVec.ofBool on).setWidth 19 <<< (k - 12)).getLsbD i = (decide (i = k - 12) && on) := by
    rw [BitVec.getLsbD_shiftLeft, BitVec.getLsbD_setWidth, BitVec.getLsbD_ofBool]
    grind
  rw [setFlagBit, BitVec.getLsbD_or, shifted]

namespace Gte

/-- Bit `n` of FLAG as it reads. -/
def flagBit (g : Gte) (n : Nat) : Bool := (readFlag g.flag).getLsbD n

theorem getLsbD_readCtrl_flag (g : Gte) (n : Nat) : (g.readCtrl 31#5).getLsbD n = g.flagBit n := rfl

theorem flagBit_flagIf (g : Gte) (on : Bool) {k n : Nat} (hk : 12 ≤ k) (hn : n < 31) :
    (g.flagIf k on).flagBit n = (g.flagBit n || (decide (n = k) && on)) := by
  have read (h : Gte) : h.flagBit n = (decide (12 ≤ n) && h.flag.getLsbD (n - 12)) := getLsbD_readFlag h.flag hn
  rw [read, read, flagIf, getLsbD_setFlagBit _ _ (by omega)]
  by_cases low : 12 ≤ n
  · simp [low, show n - 12 = k - 12 ↔ n = k by omega]
  · simp [low, show n ≠ k by omega]

theorem flagBit_flagIf_other (g : Gte) (on : Bool) {k n : Nat} (hk : 12 ≤ k) (hn : n < 31) (h : n ≠ k) :
    (g.flagIf k on).flagBit n = g.flagBit n := by
  rw [flagBit_flagIf g on hk hn, decide_eq_false h, Bool.false_and, Bool.or_false]

/-- Every bit of FLAG outside `own`, but for the computed bit 31, reads as before. -/
def keepsFlagBut (own : List Nat) (g h : Gte) : Prop := ∀ n, n < 31 → n ∉ own → h.flagBit n = g.flagBit n

theorem keepsFlagBut_flagIf (g : Gte) (on : Bool) {k : Nat} (hk : 12 ≤ k) : g.keepsFlagBut [k] (g.flagIf k on) :=
  fun _ hn outside => flagBit_flagIf_other g on hk hn fun e => outside (List.mem_singleton.2 e)

end Gte

/-! ## Clamps -/

theorem clamp_eq {lo hi : Int} (h : lo ≤ hi) (v : Int) : clamp v lo hi = max lo (min hi v) := by
  unfold clamp
  split
  · omega
  · split <;> omega

theorem clamps_eq (v lo hi : Int) : clamps v lo hi = decide (v < lo ∨ hi < v) :=
  (Bool.decide_or _ _).symm

theorem toInt_ofInt_clamp {lo hi : Int} (v : Int) (h : lo ≤ hi) (hlo : -0x8000 ≤ lo) (hhi : hi ≤ 0x7FFF) :
    (BitVec.ofInt 16 (clamp v lo hi)).toInt = max lo (min hi v) := by
  rw [clamp_eq h]
  exact BitVec.toInt_ofInt_eq_self (by decide) (by omega) (by omega)

theorem toNat_ofInt_clamp {w : Nat} {hi : Int} (v : Int) (h : 0 ≤ hi) (hhi : hi < 2 ^ w) :
    (BitVec.ofInt w (clamp v 0 hi)).toNat = (max 0 (min hi v)).toNat := by
  have bound : max 0 (min hi v) < 2 ^ w := by omega
  rw [clamp_eq h, BitVec.toNat_ofInt, Int.emod_eq_of_lt (by omega) (by exact_mod_cast bound)]

/-- The bit of a clamp records whether the value lay outside. -/
theorem Gte.flagBit_flagIf_clamps (g : Gte) (v lo hi : Int) {k : Nat} (hk : 12 ≤ k) (hk' : k < 31) :
    (g.flagIf k (clamps v lo hi)).flagBit k = (g.flagBit k || decide (v < lo ∨ hi < v)) := by
  rw [flagBit_flagIf g _ hk hk', decide_eq_true rfl, Bool.true_and, clamps_eq]

/-! ## IR1..IR3 (R342) and the screen FIFO (R346) -/

namespace Gte

theorem flagBit_putIr (g : Gte) (i : Nat) (v : Int) (n : Nat) : (g.putIr i v).flagBit n = g.flagBit n := by
  unfold putIr
  split <;> rfl

theorem ir_at_putIr (g : Gte) {i : Nat} (v : Int) (h1 : 1 ≤ i) (h3 : i ≤ 3) :
    (g.putIr i v).ir.at i = (BitVec.ofInt 16 v).toInt := by
  interval_cases i <;> rfl

theorem setIr_clamp (g : Gte) {i : Nat} (v : Int) (l : Bool) (h1 : 1 ≤ i) (h3 : i ≤ 3) :
    g.keepsFlagBut [25 - i] (g.setIr i v l) ∧ (g.setIr i v l).ir.at i = max (irMin l) (min 0x7FFF v) ∧
      (g.setIr i v l).flagBit (25 - i) = (g.flagBit (25 - i) || decide (v < irMin l ∨ 0x7FFF < v)) := by
  have range : -0x8000 ≤ irMin l ∧ irMin l ≤ 0x7FFF := by cases l <;> decide
  have put := flagBit_putIr g i (clamp v (irMin l) 0x7FFF)
  refine ⟨?keeps, ?value, ?own⟩
  case keeps =>
    exact fun n hn outside => (keepsFlagBut_flagIf _ _ (by omega) n hn outside).trans (put n)
  case value => exact (ir_at_putIr g _ h1 h3).trans (toInt_ofInt_clamp v range.2 range.1 (Int.le_refl _))
  case own => rw [setIr, flagBit_flagIf_clamps _ _ _ _ (by omega) (by omega), put]

/-- X has bit 14 and Y bit 13, and each leaves the other's. -/
theorem pushSxy_flags (g : Gte) (v w : Int) : g.keepsFlagBut [14, 13] (g.pushSxy v w) ∧
    (g.pushSxy v w).flagBit 14 = (g.flagBit 14 || decide (v < -0x400 ∨ 0x3FF < v)) ∧
      (g.pushSxy v w).flagBit 13 = (g.flagBit 13 || decide (w < -0x400 ∨ 0x3FF < w)) := by
  have x {n : Nat} := flagBit_flagIf_other (n := n) g (clamps v (-0x400) 0x3FF) (k := 14) (by decide)
  have y {n : Nat} := flagBit_flagIf_other (n := n) (g.flagIf 14 (clamps v (-0x400) 0x3FF))
    (clamps w (-0x400) 0x3FF) (k := 13) (by decide)
  refine ⟨fun n hn outside => ?keeps, ?x, ?y⟩
  case keeps =>
    simp only [List.mem_cons, List.not_mem_nil, or_false, not_or] at outside
    exact (y hn outside.2).trans (x hn outside.1)
  case x => exact (y (by decide) (by decide)).trans (flagBit_flagIf_clamps g v _ _ (by decide) (by decide))
  case y =>
    exact (flagBit_flagIf_clamps _ w _ _ (by decide) (by decide)).trans
      (congrArg (· || _) (x (by decide) (by decide)))

end Gte

/-! ## The colour FIFO (R344) -/

/-- `>>>` on an integer takes an integer count where Mathlib is imported, and a natural number where it is not. -/
theorem shiftRight_four (x : Int) : x >>> (4 : Nat) = x / 16 ∧ x >>> (4 : Int) = x / 16 :=
  ⟨Int.shiftRight_eq_div_pow x 4, (Int.shiftRight_natCast_right x 4).trans (Int.shiftRight_eq_div_pow x 4)⟩

theorem toNat_channel (m : Word) : (channel m).toNat = (max 0 (min 0xFF (m.toInt / 16))).toNat := by
  simp only [channel, shiftRight_four]
  exact toNat_ofInt_clamp (hi := 0xFF) _ (by decide) (by decide)

theorem channelClamps_eq (m : Word) : channelClamps m = decide (m.toInt / 16 < 0 ∨ 0xFF < m.toInt / 16) := by
  simp only [channelClamps, shiftRight_four, clamps_eq]

theorem extractLsb'_bytes (a b c d : BitVec 8) :
    (a ++ b ++ c ++ d).extractLsb' 0 8 = d ∧ (a ++ b ++ c ++ d).extractLsb' 8 8 = c ∧
      (a ++ b ++ c ++ d).extractLsb' 16 8 = b ∧ (a ++ b ++ c ++ d).extractLsb' 24 8 = a := by
  simp only [← BitVec.toNat_inj, toNat_append_eq, toNat_field]
  omega

theorem Gte.flagBit_pushRgb (g : Gte) {n : Nat} (hn : n < 31) :
    g.pushRgb.flagBit n =
      (g.flagBit n || (decide (n = 21) && channelClamps g.mac1) || (decide (n = 20) && channelClamps g.mac2) ||
        (decide (n = 19) && channelClamps g.mac3)) := by
  have flags : g.pushRgb.flag = (((g.flagIf 21 (channelClamps g.mac1)).flagIf 20 (channelClamps g.mac2)).flagIf 19
      (channelClamps g.mac3)).flag := rfl
  rw [flagBit, flags, ← flagBit, flagBit_flagIf _ _ (by decide) hn, flagBit_flagIf _ _ (by decide) hn,
    flagBit_flagIf _ _ (by decide) hn]

theorem Gte.pushRgb_flags (g : Gte) : g.keepsFlagBut [21, 20, 19] g.pushRgb ∧
    g.pushRgb.flagBit 21 = (g.flagBit 21 || channelClamps g.mac1) ∧
      g.pushRgb.flagBit 20 = (g.flagBit 20 || channelClamps g.mac2) ∧
      g.pushRgb.flagBit 19 = (g.flagBit 19 || channelClamps g.mac3) := by
  refine ⟨fun n hn outside => ?keeps, ?own⟩
  case keeps =>
    simp only [List.mem_cons, List.not_mem_nil, or_false, not_or] at outside
    obtain ⟨red, green, blue⟩ := outside
    simp [flagBit_pushRgb g hn, red, green, blue]
  case own => simp [flagBit_pushRgb]

/-- Settles O32: of every clamp the frame of FLAG, the stored value and its own bit. -/
theorem saturationFlags : Obligations.SaturationFlags := by
  intro g i v w l h1 h3 bit lo keeps p shade clips colour
  obtain ⟨irKeeps, ir⟩ := g.setIr_clamp v l h1 h3
  obtain ⟨sxyKeeps, sxy⟩ := g.pushSxy_flags v w
  obtain ⟨rgbKeeps, rgb⟩ := g.pushRgb_flags
  obtain ⟨red, green, blue, code⟩ :=
    extractLsb'_bytes (g.rgbc.extractLsb' 24 8) (channel g.mac3) (channel g.mac2) (channel g.mac1)
  have shaded {m : Word} {c : BitVec 8} (h : c = channel m) : c.toNat = colour m := h ▸ toNat_channel m
  have depth := toNat_ofInt_clamp (w := 16) (hi := 0xFFFF) v (by decide) (by decide)
  have depthFlag := g.flagBit_flagIf_clamps v 0 0xFFFF (k := 18) (by decide) (by decide)
  have screen (x : Int) := toInt_ofInt_clamp (lo := -0x400) (hi := 0x3FF) x (by decide) (by decide) (by decide)
  rw [channelClamps_eq, channelClamps_eq, channelClamps_eq] at rgb
  exact ⟨irKeeps, g.keepsFlagBut_flagIf _ (by decide), g.keepsFlagBut_flagIf _ (by decide), sxyKeeps,
    g.keepsFlagBut_flagIf _ (by decide), rgbKeeps,
    ⟨rfl, rfl, shaded red, shaded green, shaded blue, code, rgb⟩, ir, ⟨depth, depthFlag⟩, ⟨depth, depthFlag⟩,
    ⟨screen v, screen w, sxy⟩,
    toInt_ofInt_clamp (lo := 0) (hi := 0x1000) v (by decide) (by decide) (by decide),
    g.flagBit_flagIf_clamps v 0 0x1000 (by decide) (by decide)⟩

end Sys2Proof.Machine

/-!
PROOFS. The statements about coprocessor 2's commands (46_gte_commands.md). First the frame of every primitive, and with
it the frame of every command, assembled along the steps of its rule; then the commands as instructions; then what the
scalar commands leave in MAC0, OTZ and FLAG.
-/

namespace Sys2Proof.Machine

/-! ## Frames of the register file -/

namespace Gte

theorem changesOnly.refl {ps : List GtePart} (g : Gte) : g.changesOnly ps g := by
  intro p _
  cases p <;> simp [sameOn]

theorem sameOn.trans {g h k : Gte} {p : GtePart} (first : g.sameOn h p) (second : h.sameOn k p) : g.sameOn k p := by
  cases p <;> simp_all [sameOn]

/-- Two changes, one after the other; the second may have the narrower frame. -/
theorem changesOnly.andThen {ps qs : List GtePart} {g h k : Gte} (first : g.changesOnly ps h)
    (second : h.changesOnly qs k) (narrower : qs ⊆ ps := by decide) : g.changesOnly ps k :=
  fun p outside => (first p outside).trans (second p fun inside => outside (narrower inside))

theorem changesOnly.widen {ps qs : List GtePart} {g h : Gte} (frame : g.changesOnly qs h)
    (narrower : qs ⊆ ps := by decide) : g.changesOnly ps h :=
  (changesOnly.refl g).andThen frame narrower

section
variable {g : Gte} {sf lm l on last : Bool} {i n : Nat} {x y t a b c : Int} {u v : IVec} {m : Mat} {mode : ColourMode}
  {w : Word}

/-! ## The primitives that store one part (R330, R340 to R347) -/

theorem changesOnly_start : g.changesOnly [.flag] g.start := by
  intro p outside
  cases p <;> simp_all [sameOn, start]

theorem changesOnly_flagIf : g.changesOnly [.flag] (g.flagIf n on) := by
  intro p outside
  cases p <;> simp_all [sameOn, flagIf]

theorem changesOnly_setMac0 : g.changesOnly [.mac0, .flag] (g.setMac0 x) := by
  intro p outside
  cases p <;> simp_all [sameOn, setMac0, scalar, flagIf]

theorem changesOnly_setMac : g.changesOnly [.mac] (g.setMac sf i x) := by
  intro p outside
  unfold setMac
  split <;> cases p <;> simp_all [sameOn]

theorem changesOnly_putIr : g.changesOnly [.ir] (g.putIr i x) := by
  intro p outside
  unfold putIr
  split <;> cases p <;> simp_all [sameOn]

theorem changesOnly_setIr : g.changesOnly [.ir, .flag] (g.setIr i x l) :=
  changesOnly_putIr.widen.andThen changesOnly_flagIf

theorem changesOnly_pushRgb : g.changesOnly [.rgb, .flag] g.pushRgb := by
  intro p outside
  cases p <;> simp_all [sameOn, pushRgb, flagIf]

theorem changesOnly_pushSz : g.changesOnly [.sz, .flag] (g.pushSz x) := by
  intro p outside
  cases p <;> simp_all [sameOn, pushSz, flagIf]

theorem changesOnly_setOtz : g.changesOnly [.otz, .flag] (g.setOtz x) := by
  intro p outside
  cases p <;> simp_all [sameOn, setOtz, flagIf]

theorem changesOnly_pushSxy : g.changesOnly [.sxy, .flag] (g.pushSxy x y) := by
  intro p outside
  cases p <;> simp_all [sameOn, pushSxy, flagIf]

theorem changesOnly_setIr0 : g.changesOnly [.ir0, .flag] (g.setIr0 x) := by
  intro p outside
  cases p <;> simp_all [sameOn, setIr0, flagIf]

/-! ## Checked sums and their stores (R340 to R343, R348, R350) -/

theorem changesOnly_acc : g.changesOnly [.flag] (g.acc i x).2 :=
  changesOnly_flagIf.andThen changesOnly_flagIf

theorem changesOnly_acc3 : g.changesOnly [.flag] (g.acc3 i t a b c).2 :=
  (changesOnly_acc.andThen changesOnly_acc).andThen changesOnly_acc

theorem changesOnly_three {f : Nat → Gte → Int × Gte} (each : ∀ i (h : Gte), h.changesOnly [.flag] (f i h).2) :
    g.changesOnly [.flag] (g.three f).2 :=
  ((each 1 g).andThen (each 2 _)).andThen (each 3 _)

theorem changesOnly_product : g.changesOnly [.flag] (g.product m u v).2 :=
  changesOnly_three fun _ _ => changesOnly_acc3

theorem changesOnly_setMacIr : g.changesOnly [.ir, .mac, .flag] (g.setMacIr sf i x l) :=
  changesOnly_setMac.widen.andThen changesOnly_setIr

theorem changesOnly_setMacIr3 : g.changesOnly [.ir, .mac, .flag] (g.setMacIr3 sf v l) :=
  (changesOnly_setMacIr.andThen changesOnly_setMacIr).andThen changesOnly_setMacIr

/-- The shape of the vector commands: three checked sums, then their three stores. -/
theorem changesOnly_setMacIr3_three {f : Nat → Gte → Int × Gte}
    (each : ∀ i (h : Gte), h.changesOnly [.flag] (f i h).2) :
    g.changesOnly [.ir, .mac, .flag] ((g.three f).2.setMacIr3 sf (g.three f).1 l) :=
  (changesOnly_three each).widen.andThen changesOnly_setMacIr3

theorem changesOnly_mulmat : g.changesOnly [.ir, .mac, .flag] (g.mulmat sf m u v l) :=
  changesOnly_setMacIr3_three fun _ _ => changesOnly_acc3

theorem changesOnly_interpolate : g.changesOnly [.ir, .mac, .flag] (g.interpolate sf v l) :=
  (changesOnly_setMacIr3_three fun _ _ => changesOnly_acc).andThen
    (changesOnly_setMacIr3_three fun _ _ => changesOnly_acc)

theorem changesOnly_divide {h z : BitVec 16} : g.changesOnly [.flag] (g.divide h z).2 := by
  unfold divide
  split
  case isTrue => exact changesOnly_flagIf
  case isFalse => exact changesOnly.refl g

/-! ## The vector commands (R384, R387, R395) -/

theorem changesOnly_op : g.changesOnly [.ir, .mac, .flag] (g.op sf lm) :=
  changesOnly_setMacIr3_three fun _ _ => changesOnly_acc

theorem changesOnly_sqr : g.changesOnly [.ir, .mac, .flag] (g.sqr sf lm) := changesOnly_setMacIr3

/-- The faulty case stores IR1..IR3 between its two rounds of sums. -/
theorem changesOnly_mulmatFar : g.changesOnly [.ir, .mac, .flag] (g.mulmatFar sf m v l) := by
  have far {h : Gte} {x y z : Int} :
      h.changesOnly [.ir, .flag] (((h.setIr 1 x false).setIr 2 y false).setIr 3 z false) :=
    (changesOnly_setIr.andThen changesOnly_setIr).andThen changesOnly_setIr
  exact ((changesOnly_three fun _ _ => changesOnly_acc).widen.andThen far).andThen
    (changesOnly_setMacIr3_three fun _ _ => changesOnly_acc.andThen changesOnly_acc)

theorem changesOnly_mvmva {args : GteArgs} : g.changesOnly [.ir, .mac, .flag] (g.mvmva args m) := by
  unfold mvmva
  split
  case isTrue => exact changesOnly_mulmatFar
  case isFalse => exact changesOnly_mulmat

/-! ## The colour commands (R385, R386, R388 to R394, R396, R397, R400 to R402)

Each ends by pushing MAC onto the colour FIFO. -/

theorem changesOnly.thenPushRgb {h : Gte} (frame : g.changesOnly [.ir, .mac, .flag] h) :
    g.changesOnly [.ir, .mac, .rgb, .flag] h.pushRgb :=
  frame.widen.andThen changesOnly_pushRgb

theorem changesOnly_shade : g.changesOnly [.ir, .mac, .flag] (g.shade sf lm mode) := by
  cases mode
  case plain => exact changesOnly.refl g
  case colour => exact changesOnly_setMacIr3
  case depth => exact changesOnly_interpolate

theorem changesOnly_lit : g.changesOnly [.ir, .mac, .rgb, .flag] (g.lit sf lm mode) :=
  (changesOnly_mulmat.andThen changesOnly_shade).thenPushRgb

theorem changesOnly_nc : g.changesOnly [.ir, .mac, .rgb, .flag] (g.nc sf lm v mode) :=
  changesOnly_mulmat.widen.andThen changesOnly_lit

theorem changesOnly_nc3 : g.changesOnly [.ir, .mac, .rgb, .flag] (g.nc3 sf lm mode) :=
  (changesOnly_nc.andThen changesOnly_nc).andThen changesOnly_nc

theorem changesOnly_cue : g.changesOnly [.ir, .mac, .rgb, .flag] (g.cue sf lm w) :=
  changesOnly_interpolate.thenPushRgb

theorem changesOnly_dpct : g.changesOnly [.ir, .mac, .rgb, .flag] (g.dpct sf lm) :=
  (changesOnly_cue.andThen changesOnly_cue).andThen changesOnly_cue

theorem changesOnly_intpl : g.changesOnly [.ir, .mac, .rgb, .flag] (g.intpl sf lm) :=
  changesOnly_interpolate.thenPushRgb

theorem changesOnly_dcpl : g.changesOnly [.ir, .mac, .rgb, .flag] (g.dcpl sf lm) :=
  changesOnly_interpolate.thenPushRgb

theorem changesOnly_gpf : g.changesOnly [.ir, .mac, .rgb, .flag] (g.gpf sf lm) :=
  changesOnly_setMacIr3.thenPushRgb

theorem changesOnly_gpl : g.changesOnly [.ir, .mac, .rgb, .flag] (g.gpl sf lm) :=
  (changesOnly_setMacIr3_three fun _ _ => changesOnly_acc).thenPushRgb

/-! ## The geometry commands (R381 to R383, R398, R399) -/

/-- The nine steps of `rtp`; the ninth only for the last vertex. -/
theorem changesOnly_rtp : g.changesOnly [.ir, .ir0, .mac, .mac0, .sz, .sxy, .flag] (g.rtp sf lm v last) := by
  unfold rtp
  extract_lets t g2 g3 z g4 g5 n sx sy g7 g8 q
  have rotated : g.changesOnly [.mac, .flag] g2 :=
    ((changesOnly_product.widen.andThen changesOnly_setMac).andThen changesOnly_setMac).andThen changesOnly_setMac
  have clamped : g2.changesOnly [.ir, .flag] g4 :=
    ((changesOnly_setIr.andThen changesOnly_setIr).andThen changesOnly_flagIf).andThen changesOnly_putIr
  have divided : g4.changesOnly [.sz, .flag] n.2 := changesOnly_pushSz.andThen changesOnly_divide
  have projected : n.2.changesOnly [.mac0, .sxy, .flag] g8 :=
    (changesOnly_setMac0.widen.andThen changesOnly_setMac0).andThen changesOnly_pushSxy
  have vertex : g.changesOnly [.ir, .ir0, .mac, .mac0, .sz, .sxy, .flag] g8 :=
    ((rotated.widen.andThen clamped).andThen divided).andThen projected
  cases last
  case false => exact vertex
  case true => exact (vertex.andThen changesOnly_setMac0).andThen changesOnly_setIr0

theorem changesOnly_rtpt : g.changesOnly [.ir, .ir0, .mac, .mac0, .sz, .sxy, .flag] (g.rtpt sf lm) :=
  (changesOnly_rtp.andThen changesOnly_rtp).andThen changesOnly_rtp

theorem changesOnly_nclip : g.changesOnly [.mac0, .flag] g.nclip := changesOnly_setMac0

theorem changesOnly_avsz3 : g.changesOnly [.mac0, .otz, .flag] g.avsz3 :=
  changesOnly_setMac0.widen.andThen changesOnly_setOtz

theorem changesOnly_avsz4 : g.changesOnly [.mac0, .otz, .flag] g.avsz4 :=
  changesOnly_setMac0.widen.andThen changesOnly_setOtz

end

end Gte

/-! ## Commands as instructions (R403) -/

/-- A command clears FLAG before its own changes, so FLAG is in its frame. -/
theorem completesOnGte_of_changesOnly {i : Instr} {ps : List GtePart} {s : State} {g : Gte}
    (run : exec i s = .next (s.setGte g)) (frame : s.gte.start.changesOnly ps g)
    (flag : [.flag] ⊆ ps := by decide) : completesOnGte i ps s :=
  ⟨g, run, (Gte.changesOnly_start.widen flag).andThen frame (List.Subset.refl ps)⟩

theorem Gte.selMatrix_isSome (g : Gte) {mx : BitVec 2} (h : mx ≠ 3) : ∃ m, g.selMatrix mx = some m := by
  have number : mx = 0 ∨ mx = 1 ∨ mx = 2 ∨ mx = 3 := by revert mx; decide
  obtain rfl | rfl | rfl | rfl := number
  exacts [⟨_, rfl⟩, ⟨_, rfl⟩, ⟨_, rfl⟩, absurd rfl h]

theorem exec_gteMvmva_of_some {a : GteArgs} {s : State} {m : Mat} (h : s.gte.selMatrix a.mx = some m) :
    exec (.gteMvmva a) s = .next (s.setGte (s.gte.start.mvmva a m)) := by
  rw [exec, execGteMvmva, h]
  rfl

theorem exec_gteMvmva_reserved {a : GteArgs} (h : a.mx = 3) (s : State) :
    exec (.gteMvmva a) s = .fault (.unknownOpcode .coprocessor s.pc (wordGte a 0x12#6)) := by
  rw [exec, execGteMvmva, h]
  rfl

/-- Settles O29: every command runs its function on the registers, whose frame is the lemma of that name; the word of
the halt is the encoder's. -/
theorem gteVectorCommands : Obligations.GteVectorCommands := by
  refine ⟨fun a s => ⟨?colour, ?op, ?sqr, fun hmx => ?mvmva⟩, fun a s hmx => ?reserved⟩
  case colour =>
    simp only [List.forall_mem_cons, List.not_mem_nil, false_imp_iff, implies_true, and_true]
    refine ⟨?ncs, ?nct, ?nccs, ?ncct, ?ncds, ?ncdt, ?cc, ?cdp, ?dcpl, ?dpcs, ?dpct, ?intpl, ?gpf, ?gpl⟩
    case ncs | nccs | ncds => exact completesOnGte_of_changesOnly rfl Gte.changesOnly_nc
    case nct | ncct | ncdt => exact completesOnGte_of_changesOnly rfl Gte.changesOnly_nc3
    case cc | cdp => exact completesOnGte_of_changesOnly rfl Gte.changesOnly_lit
    case dcpl => exact completesOnGte_of_changesOnly rfl Gte.changesOnly_dcpl
    case dpcs => exact completesOnGte_of_changesOnly rfl Gte.changesOnly_cue
    case dpct => exact completesOnGte_of_changesOnly rfl Gte.changesOnly_dpct
    case intpl => exact completesOnGte_of_changesOnly rfl Gte.changesOnly_intpl
    case gpf => exact completesOnGte_of_changesOnly rfl Gte.changesOnly_gpf
    case gpl => exact completesOnGte_of_changesOnly rfl Gte.changesOnly_gpl
  case op => exact completesOnGte_of_changesOnly rfl Gte.changesOnly_op
  case sqr => exact completesOnGte_of_changesOnly rfl Gte.changesOnly_sqr
  case mvmva =>
    obtain ⟨m, hm⟩ := s.gte.selMatrix_isSome hmx
    exact completesOnGte_of_changesOnly (exec_gteMvmva_of_some hm) Gte.changesOnly_mvmva
  case reserved => exact ⟨_, exec_gteMvmva_reserved hmx s, decodeCpu_encodeWord (i := .gteMvmva a) rfl⟩

/-- Settles O30: as for the vector commands, by the frames of `rtp` and of the scalar stores. -/
theorem gteGeometryCommands : Obligations.GteGeometryCommands := by
  refine fun a s => ⟨?rtps, ?rtpt, ?nclip, ?avsz3, ?avsz4⟩
  case rtps => exact completesOnGte_of_changesOnly rfl Gte.changesOnly_rtp
  case rtpt => exact completesOnGte_of_changesOnly rfl Gte.changesOnly_rtpt
  case nclip => exact completesOnGte_of_changesOnly rfl Gte.changesOnly_nclip
  case avsz3 => exact completesOnGte_of_changesOnly rfl Gte.changesOnly_avsz3
  case avsz4 => exact completesOnGte_of_changesOnly rfl Gte.changesOnly_avsz4

/-! ## The scalar results (R383, R398, R399) -/

/-- FLAG after a scalar command: the overflow bits of `F(x)` (R341), the clamp bit of OTZ (R345), and bit 31 with any of
them (R330). -/
def scalarFlags (x : Int) (clamped : Bool) : Word :=
  (if x > 2 ^ 31 - 1 then 0x80010000#32 else 0) ||| (if x < -(2 ^ 31) then 0x80008000#32 else 0) |||
    (if clamped then 0x80040000#32 else 0)

theorem readFlag_overflow_clamp : ∀ above below clamped : Bool,
    readFlag (setFlagBit (setFlagBit (setFlagBit 0 16 above) 15 below) 18 clamped) =
      (if above then 0x80010000#32 else 0) ||| (if below then 0x80008000#32 else 0) |||
        (if clamped then 0x80040000#32 else 0) := by decide

theorem setFlagBit_false (f : BitVec 19) (n : Nat) : setFlagBit f n false = f := by
  simp [setFlagBit]

/-- The bits a scalar check and a depth clamp set in a FLAG that starts clear. -/
theorem readCtrl_flag_scalar (g : Gte) (x : Int) (clamped : Bool) :
    ((g.start.scalar x).flagIf 18 clamped).readCtrl 31#5 = scalarFlags x clamped := by
  have bits := readFlag_overflow_clamp (above32 x) (below32 x) clamped
  simp only [above32, below32, decide_eq_true_eq] at bits
  exact bits

theorem readCtrl_flag_setMac0 (g : Gte) (x : Int) : (g.start.setMac0 x).readCtrl 31#5 = scalarFlags x false := by
  rw [← readCtrl_flag_scalar g]
  exact congrArg readFlag (setFlagBit_false _ 18).symm

/-- As `shiftRight_four`, for the averages' shift. -/
theorem shiftRight_twelve (x : Int) : x >>> (12 : Nat) = x / 4096 ∧ x >>> (12 : Int) = x / 4096 :=
  ⟨Int.shiftRight_eq_div_pow x 12, (Int.shiftRight_natCast_right x 12).trans (Int.shiftRight_eq_div_pow x 12)⟩

/-- What R398 and R399 do with a weighted sum. -/
def Gte.average (g : Gte) (m : Int) : Gte := (g.setMac0 m).setOtz (m / 4096)

theorem Gte.avsz3_eq_average (g : Gte) :
    g.avsz3 = g.average (g.zsf3.toInt * (g.sz1.toNat + g.sz2.toNat + g.sz3.toNat)) := by
  simp only [avsz3, average, shiftRight_twelve, Nat.cast_add]

theorem Gte.avsz4_eq_average (g : Gte) :
    g.avsz4 = g.average (g.zsf4.toInt * (g.sz0.toNat + g.sz1.toNat + g.sz2.toNat + g.sz3.toNat)) := by
  simp only [avsz4, average, shiftRight_twelve, Nat.cast_add]

theorem Gte.toNat_otz_average (g : Gte) (m : Int) :
    (g.average m).otz.toNat = (max 0 (min 0xFFFF (m / 4096))).toNat :=
  toNat_ofInt_clamp (hi := 0xFFFF) _ (by decide) (by decide)

theorem Gte.readCtrl_flag_average (g : Gte) (m : Int) : (g.start.average m).readCtrl 31#5 =
    scalarFlags m (decide (m / 4096 < 0 ∨ 0xFFFF < m / 4096)) := by
  rw [← clamps_eq, ← readCtrl_flag_scalar g]
  rfl

/-- Settles O31: NCLIP stores a scalar and the averages a scalar and its quotient, over a FLAG that starts clear. -/
theorem gteScalarResults : Obligations.GteScalarResults := by
  intro a s g cross m3 m4 flagsOf otzOf
  have averaged {i : Instr} {h : Gte} {m : Int} (run : exec i s = .next (s.setGte h))
      (average : h = g.start.average m) :
      ∃ t, exec i s = .next t ∧ t.gte.mac0 = BitVec.ofInt 32 m ∧ t.gte.otz.toNat = otzOf m ∧
        t.gte.readCtrl 31#5 = flagsOf m (decide (m / 4096 < 0 ∨ 0xFFFF < m / 4096)) := by
    subst average
    exact ⟨_, run, rfl, g.start.toNat_otz_average m, g.readCtrl_flag_average m⟩
  refine ⟨?nclip, ?avsz3, ?avsz4⟩
  case nclip => exact ⟨_, rfl, rfl, readCtrl_flag_setMac0 g cross⟩
  case avsz3 => exact averaged rfl g.start.avsz3_eq_average
  case avsz4 => exact averaged rfl g.start.avsz4_eq_average

end Sys2Proof.Machine

/-!
PROOFS. The statements about the command words of the graphics processor (47_gpu_commands.md R435, R436, R440): what
the decoder makes of a GP0 command's words, and what the command machine does with them one by one.
-/

namespace Sys2Proof.Machine

/-! ## Decoding an encoded GP0 command -/

/-- The three top bits of a command byte (R440). -/
theorem top_byteOfBits : ∀ (top : BitVec 3) (b4 b3 b2 b1 b0 : Bool),
    (byteOfBits top b4 b3 b2 b1 b0).extractLsb' 5 3 = top := by decide

/-- The option bits of a command byte (R446 to R448). -/
theorem bits_byteOfBits : ∀ (top : BitVec 3) (b4 b3 b2 b1 b0 : Bool),
    (byteOfBits top b4 b3 b2 b1 b0)[4] = b4 ∧ (byteOfBits top b4 b3 b2 b1 b0)[3] = b3 ∧
      (byteOfBits top b4 b3 b2 b1 b0)[2] = b2 ∧ (byteOfBits top b4 b3 b2 b1 b0)[1] = b1 ∧
      (byteOfBits top b4 b3 b2 b1 b0)[0] = b0 := by decide

/-- The size field of a rectangle's command byte (R448). -/
theorem size_byteOfBits : ∀ (z : BitVec 2) (b2 b1 b0 : Bool),
    (byteOfBits 3#3 z[1] z[0] b2 b1 b0).extractLsb' 3 2 = z := by decide

theorem gp0Words_polygon : ∀ sh q tx se ra : Bool,
    gp0Words (byteOfBits 1#3 sh q tx se ra) = some (1 + polygonArgs sh q tx) := by decide

theorem gp0Words_line : ∀ sh i2 se i0 : Bool,
    gp0Words (byteOfBits 2#3 sh false i2 se i0) = some (1 + lineArgs sh) := by decide

theorem gp0Words_rect : ∀ (z : BitVec 2) (tx se ra : Bool),
    gp0Words (byteOfBits 3#3 z[1] z[0] tx se ra) = some (1 + rectArgs z tx) := by decide

/-- The first word of a well-formed command asks for the words that the command has (R436). -/
theorem gp0Words_encodeWord {i : Instr} (hi : i.space = .gp0) (hwf : i.wf = true) :
    gp0Words (fCmd (encodeWord i)) = some (encodeWords i).length := by
  cases i
  case gp0Polygon =>
    simp [encodeWord, encodeWords, gp0Words_polygon, Nat.add_comm, eq_of_beq hwf]
  case gp0Line =>
    simp [encodeWord, encodeWords, gp0Words_line, Nat.add_comm, eq_of_beq hwf]
  case gp0Rect =>
    simp [encodeWord, encodeWords, gp0Words_rect, Nat.add_comm, eq_of_beq hwf]
  case gp0Nop | gp0ClearCache | gp0Fill | gp0Irq | gp0CopyVram | gp0ToVram | gp0FromVram | gp0DrawMode |
      gp0TexWindow | gp0AreaTl | gp0AreaBr | gp0Offset | gp0MaskBits =>
    simp [encodeWord, encodeWords, gp0Words]
  all_goals contradiction

/-- The first word names the command, and the further words are its operands (R440). -/
theorem gp0OfWords_encodeWords {i : Instr} (hi : i.space = .gp0) :
    gp0OfWords (encodeWord i) (encodeWords i).tail = .ok i := by
  cases i
  case gp0Polygon sh q tx se ra _ _ =>
    simp [encodeWord, encodeWords, gp0OfWords, top_byteOfBits, bits_byteOfBits]
  case gp0Line sh i2 se i0 _ _ =>
    simp [encodeWord, encodeWords, gp0OfWords, top_byteOfBits, bits_byteOfBits]
  case gp0Rect z tx se ra _ _ =>
    simp [encodeWord, encodeWords, gp0OfWords, top_byteOfBits, bits_byteOfBits, size_byteOfBits]
  case gp0Nop | gp0ClearCache | gp0Fill | gp0Irq | gp0CopyVram | gp0ToVram | gp0FromVram | gp0DrawMode |
      gp0TexWindow | gp0AreaTl | gp0AreaBr | gp0Offset | gp0MaskBits =>
    simp [encodeWord, encodeWords, gp0OfWords]
  all_goals contradiction

/-- The decoder takes a command off a stream of words. -/
theorem decodeGp0_encodeWords {i : Instr} (hi : i.space = .gp0) (hwf : i.wf = true) (rest : List Word) :
    decodeGp0 (encodeWords i ++ rest) = .ok (i, rest) := by
  obtain ⟨ws, hws⟩ := encodeWords_eq_cons i
  have hn := gp0Words_encodeWord hi hwf
  have ho := gp0OfWords_encodeWords hi
  rw [hws] at hn ho ⊢
  simp only [List.tail_cons] at ho
  simp [decodeGp0, hn, ho]

/-- Settles O59: the first word gives the length and the command, and the bytes give back the words. -/
theorem roundTripGp0 : Obligations.RoundTripGp0 := by
  intro i rest hwf hi
  refine ⟨decodeGp0_encodeWords hi hwf rest, ?_⟩
  have h := decodeGp0_encodeWords hi hwf []
  rw [List.append_nil] at h
  simp [decode, wordsOfBytes_encode, hi, h]

/-! ## Collecting the words of a command -/

/-- The unit with the words `ws` collected and in mode `m`. -/
def State.collecting (s : State) (ws : List Word) (m : GpuMode) : State :=
  s.setGpu { s.gpu with buf := ws, mode := m }

/-- What a command does depends neither on the words collected nor on the mode (R435). -/
theorem exec_collecting {i : Instr} (hi : i.space = .gp0) (s : State) (ws : List Word) (m : GpuMode) :
    exec i (s.collecting ws m) = exec i s := by
  cases i
  case gp0Nop | gp0ClearCache | gp0Fill | gp0Irq | gp0Polygon | gp0Line | gp0Rect | gp0CopyVram | gp0ToVram |
      gp0FromVram | gp0DrawMode | gp0TexWindow | gp0AreaTl | gp0AreaBr | gp0Offset | gp0MaskBits =>
    rfl
  all_goals contradiction

/-- Words submitted one after another, stopping at the first that does not answer a next state. -/
def submitWords (ws : List Word) (o : Out) : Out := ws.foldl (fun o w => andThen o (submitCommandWord w)) o

/-- The words still missing are collected, and the last of them runs the command. -/
theorem submitWords_collecting (s : State) (got : List Word) (w : Word) (ws : List Word) :
    submitWords (w :: ws) (.next (s.collecting got (.awaiting (ws.length + 1)))) =
      runGp0 (got ++ w :: ws) (s.collecting (got ++ (w :: ws).dropLast) (.awaiting 1)) := by
  induction ws generalizing got w with
  | nil => simp [submitWords, andThen, submitCommandWord, State.collecting]
  | cons v vs ih =>
    have step : submitCommandWord w (s.collecting got (.awaiting ((v :: vs).length + 1))) =
        .next (s.collecting (got ++ [w]) (.awaiting (vs.length + 1))) := by
      simp [submitCommandWord, State.collecting]
      rfl
    have h := ih (got ++ [w]) v
    simp only [List.append_assoc, List.singleton_append] at h
    rw [List.dropLast_cons_of_ne_nil (by simp), ← h, submitWords, List.foldl_cons, andThen, step]
    rfl

/-- The first word of a command of `n + 1` words leaves an idle unit awaiting `n` (R435). -/
theorem submit_first {s : State} {w : Word} {n : Nat} (hm : s.gpu.mode = .idle)
    (hw : gp0Words (fCmd w) = some (n + 2)) :
    submitCommandWord w s = .next (s.collecting [w] (.awaiting (n + 1))) := by
  simp [submitCommandWord, hm, hw, State.collecting]

/-- A command of one word runs at once (R435). -/
theorem submit_only {s : State} {w : Word} (hm : s.gpu.mode = .idle) (hw : gp0Words (fCmd w) = some 1) :
    submitCommandWord w s = runGp0 [w] s := by
  simp [submitCommandWord, hm, hw]

/-- Settles O39, by induction on the words still missing: only the last one runs the command, and what it runs does
not see what has been collected. -/
theorem commandWordByWord : Obligations.CommandWordByWord := by
  intro i s hi hwf hm
  have run := decodeGp0_encodeWords hi hwf []
  have hn := gp0Words_encodeWord hi hwf
  obtain ⟨ws, hws⟩ := encodeWords_eq_cons i
  rw [List.append_nil] at run
  rw [hws] at run hn ⊢
  show submitWords (encodeWord i :: ws) (.next s) = exec i s
  cases ws with
  | nil => exact (submit_only hm hn).trans (runGp0_eq s run hi)
  | cons v vs =>
    calc submitWords (encodeWord i :: v :: vs) (.next s)
        = submitWords (v :: vs) (.next (s.collecting [encodeWord i] (.awaiting (vs.length + 1)))) :=
          congrArg (submitWords (v :: vs)) (submit_first hm hn)
      _ = exec i (s.collecting _ _) :=
          (submitWords_collecting s [encodeWord i] v vs).trans (runGp0_eq _ run hi)
      _ = exec i s := exec_collecting hi s _ _

end Sys2Proof.Machine

/-!
PROOFS. The statements about what a graphics command sets and what it draws (47_gpu_commands.md). First the frames of
the unit and the fields of GPUSTAT; then the settings, the drawing commands, the fill and the drawing area.
-/

namespace Sys2Proof.Machine

/-! ## Frames of the unit -/

namespace Gpu

theorem changesOnly_refl (ps : List GpuPart) (g : Gpu) : g.changesOnly ps g := by
  intro p _; cases p <;> simp [Gpu.sameOn]

theorem changesOnly_mono {ps qs : List GpuPart} {g h : Gpu} (c : g.changesOnly ps h) (hq : ps ⊆ qs) :
    g.changesOnly qs h := fun p hp => c p fun hm => hp (hq hm)

theorem sameOn_trans {g h k : Gpu} {p : GpuPart} (c : g.sameOn h p) (d : h.sameOn k p) : g.sameOn k p := by
  cases p <;> simp_all [Gpu.sameOn]

theorem changesOnly_trans {ps : List GpuPart} {g h k : Gpu} (c : g.changesOnly ps h) (d : h.changesOnly ps k) :
    g.changesOnly ps k := fun p hp => sameOn_trans (c p hp) (d p hp)

theorem changesOnly_collect (g : Gpu) (ws : List Word) (m : GpuMode) :
    g.changesOnly [.buf, .mode] { g with buf := ws, mode := m } := by
  intro p hp; cases p <;> simp_all [Gpu.sameOn, Gpu.pixel]

theorem changesOnly_setStat (g : Gpu) (m v : Word) : g.changesOnly [.stat] (g.setStat m v) := by
  intro p hp; cases p <;> simp_all [Gpu.sameOn, Gpu.pixel, Gpu.setStat]

theorem changesOnly_logRegion (g : Gpu) (r : Rect) : g.changesOnly [.log] (g.logRegion r) := by
  intro p hp; cases p <;> simp_all [Gpu.sameOn, Gpu.pixel, Gpu.logRegion]

end Gpu

theorem Drawn.changesOnly {A : Nat → Nat → Prop} {g h : Gpu} (d : Drawn A g h) : g.changesOnly [.vram] h := by
  rw [d.rest]
  intro p hp; cases p <;> simp_all [Gpu.sameOn]

/-! ## Bits of GPUSTAT -/

/-- The bits outside the mask are kept. -/
theorem setStat_outside (g : Gpu) (m v : Word) : (g.setStat m v).stat &&& ~~~m = g.stat &&& ~~~m := by
  simp [Gpu.setStat, BitVec.and_or_distrib_right, BitVec.and_assoc]

/-- Setting no bit of the mask clears the mask. -/
theorem setStat_zero (g : Gpu) (m : Word) : (g.setStat m 0).stat = g.stat &&& ~~~m := by
  simp [Gpu.setStat]

/-- Setting every bit of the mask is OR with it. -/
theorem setStat_ones (g : Gpu) (m : Word) : (g.setStat m m).stat = g.stat ||| m := by
  ext i hi
  simp only [Gpu.setStat, BitVec.getElem_or, BitVec.getElem_and, BitVec.getElem_not]
  cases m[i] <;> simp

/-- A GP1 command that sets GPUSTAT sets it to the value of `v`. -/
theorem next_stat_congr (s : State) {v w : Word} (h : v = w) :
    (.next (s.setGpu { s.gpu with stat := v }) : Out) = .next (s.setGpu { s.gpu with stat := w }) := by rw [h]

/-- A word of one bit. -/
theorem getLsbD_bitWord {n i : Nat} (hi : i < 32) (on : Bool) :
    (bitWord n on).getLsbD i = (decide (i = n) && on) := by
  cases on with
  | false => simp [bitWord]
  | true =>
    have one : bitWord n true = BitVec.twoPow 32 n := rfl
    rw [one, BitVec.getLsbD_twoPow, Bool.and_true]
    by_cases h : n = i
    · simp [h, hi]
    · simp [h, Ne.symm h]

/-- GPUSTAT as it reads, bit by bit (R433). -/
theorem getLsbD_readStat (g : Gpu) {i : Nat} (hi : i < 32) : g.readStat.getLsbD i =
    (g.stat.getLsbD i && (0x61FF5FFF#32).getLsbD i || decide (i = 13) && (!g.stat.getLsbD 22 || !g.field) ||
      decide (i = 25) && g.dmaRequest || decide (i = 26) && g.mode == .idle || decide (i = 27) && g.mode == .fromVram ||
      decide (i = 28) && g.mode != .fromVram || decide (i = 31) && g.field) := by
  simp only [Gpu.readStat, BitVec.getLsbD_or, BitVec.getLsbD_and, getLsbD_bitWord hi]

/-- The stored bits of GPUSTAT that a read gives are none of the live ones (R433). -/
theorem readStat_stored (g : Gpu) : g.readStat &&& 0x61FF5FFF#32 = g.stat &&& 0x61FF5FFF#32 := by
  have live : ∀ n ∈ [13, 25, 26, 27, 28, 31], ∀ on, bitWord n on &&& 0x61FF5FFF#32 = 0 := by decide
  simp [Gpu.readStat, BitVec.and_or_distrib_right, BitVec.and_assoc, live]

/-! ## Settings -/

/-- Settles O33: each setting is a record update, and the interrupt command a bit of GPUSTAT with its rise. -/
theorem gp0Settings : Obligations.Gp0Settings := by
  refine ⟨fun a s => ⟨rfl, rfl, rfl, rfl, rfl, rfl, rfl, rfl, ?irq⟩,
    fun a p w s => ⟨rfl, rfl, Nat.succ_pos _, Nat.mod_lt _ (by decide), Nat.succ_pos _, Nat.mod_lt _ (by decide)⟩⟩
  case irq =>
    refine ⟨_, rfl, ?frame, ?unit, ?stat, rfl, ?rise⟩
    case frame =>
      exact changesOnly_trans (changesOnly_mono (changesOnly_raiseIrq s 1 _) (by simp))
        (changesOnly_mono (changesOnly_setGpu _ _) (by simp))
    case unit =>
      exact Gpu.changesOnly_trans (Gpu.changesOnly_mono (s.gpu.changesOnly_collect _ _) (by simp))
        (Gpu.changesOnly_mono (Gpu.changesOnly_setStat _ _ _) (by simp))
    case stat => exact setStat_ones s.gpu _
    case rise => cases s.gpu.stat.getLsbD 24 <;> simp [State.raiseIrq]

/-- Settles O41: GP1 commands are record updates up to the form of a masked word, and GPUSTAT is read bit by bit. -/
theorem gp1AndStatus : Obligations.Gp1AndStatus := by
  refine ⟨fun a s => ⟨rfl, rfl, ?ack, ?enable, ?direction, rfl, rfl, rfl, ?mode, rfl⟩, fun g => ?read⟩
  case ack => exact next_stat_congr s (setStat_zero s.gpu _)
  case enable =>
    have bit : (a.setWidth 32 <<< 23) &&& BitVec.twoPow 32 23 = if a.getLsbD 0 then BitVec.twoPow 32 23 else 0 := by
      rw [BitVec.and_twoPow]; simp
    exact next_stat_congr s (congrArg (s.gpu.stat &&& 0xFF7FFFFF#32 ||| ·) bit)
  case direction =>
    have bits := BitVec.shiftLeft_and_distrib (x := a.setWidth 32) (y := 3#32) (n := 29)
    exact next_stat_congr s (congrArg (s.gpu.stat &&& 0x9FFFFFFF#32 ||| ·) bits.symm)
  case mode =>
    refine ⟨_, rfl, ?_, ?_, ?_, ?_, setStat_outside _ _ _⟩
    · apply BitVec.eq_of_getLsbD_eq; intro i hi; interval_cases i <;> simp [displayMode]
    · apply BitVec.eq_of_getLsbD_eq; intro i hi; interval_cases i <;> simp [displayMode]
    · simp [displayMode]
    · simp [displayMode]
  case read =>
    intro v
    have request : v.getLsbD 25 = g.dmaRequest := by
      rw [getLsbD_readStat g (by decide)]; simp
    have idle : v.getLsbD 26 = (g.mode == .idle) := by
      rw [getLsbD_readStat g (by decide)]; simp
    have reads : v.getLsbD 27 = (g.mode == .fromVram) := by
      rw [getLsbD_readStat g (by decide)]; simp
    have writes : v.getLsbD 28 = (g.mode != .fromVram) := by
      rw [getLsbD_readStat g (by decide)]; simp
    refine ⟨readStat_stored g, ?_, ?_, idle.trans (beq_eq_decide _ _), reads.trans (beq_eq_decide _ _), ?_, ?_, ?_⟩
    · rw [getLsbD_readStat g (by decide)]; simp
    · rw [getLsbD_readStat g (by decide)]; cases g.stat.getLsbD 22 <;> simp
    · rw [writes, bne, beq_eq_decide, decide_not]
    · rw [getLsbD_readStat g (by decide)]; simp
    · rw [request, writes, reads]; rfl

/-! ## Drawing commands -/

/-- What the drawing commands have in common (R444, R446 to R449, R494): the command completes, leaves the unit idle,
changes the listed parts alone and appends one entry with its words to the log. -/
def Draws (s : State) (i : Instr) (ps : List GpuPart) : Prop :=
  ∃ g region, exec i s = .next (s.setGpu g) ∧ s.gpu.changesOnly ps g ∧ g.mode = .idle ∧
    g.buf = encodeWords i ∧ g.log = s.gpu.log ++ [⟨encodeWords i, region⟩]

/-- The unit a complete command starts from. -/
def Gpu.started (g : Gpu) (i : Instr) : Gpu := { g with buf := encodeWords i, mode := .idle }

/-- A command that draws, from the unit it has started or from one whose GPUSTAT it has set, and then logs. -/
theorem draws_of_drawn {s : State} {i : Instr} {f : Gpu → Gpu} {ps : List GpuPart} {A : Nat → Nat → Prop} {g h : Gpu}
    {r : Rect} (hx : exec i s = gp0Run i f s) (hstart : (s.gpu.started i).changesOnly ps g) (hd : Drawn A g h)
    (hf : f (s.gpu.started i) = h.logRegion r) (hm : .mode ∉ ps) (hb : .buf ∉ ps) (hl : .log ∉ ps) :
    Draws s i ([.vram, .buf, .mode, .log] ++ ps) := by
  have all := Gpu.changesOnly_trans (Gpu.changesOnly_mono hstart (List.subset_append_right [.vram] ps))
    (Gpu.changesOnly_mono hd.changesOnly (List.subset_append_left _ ps))
  have mode : h.mode = .idle := all .mode (by simpa using hm)
  have buf : h.buf = encodeWords i := all .buf (by simpa using hb)
  have log : h.log = s.gpu.log := all .log (by simpa using hl)
  have run : exec i s = .next (s.setGpu (h.logRegion r)) := by rw [hx, ← hf]; rfl
  have frame : s.gpu.changesOnly ([.vram, .buf, .mode, .log] ++ ps) (h.logRegion r) :=
    Gpu.changesOnly_trans (Gpu.changesOnly_mono (s.gpu.changesOnly_collect _ _) (by simp))
      (Gpu.changesOnly_trans (Gpu.changesOnly_mono all (by intro p; simp; tauto))
        (Gpu.changesOnly_mono (h.changesOnly_logRegion r) (by simp)))
  refine ⟨h.logRegion r, r, run, frame, mode, buf, ?_⟩
  show h.log ++ [⟨h.buf, r⟩] = _
  rw [log, buf]

/-- A command that draws from the unit it has started. -/
theorem draws_of_drawn_started {s : State} {i : Instr} {f : Gpu → Gpu} {A : Nat → Nat → Prop} {h : Gpu} {r : Rect}
    (hx : exec i s = gp0Run i f s) (hd : Drawn A (s.gpu.started i) h) (hf : f (s.gpu.started i) = h.logRegion r) :
    Draws s i [.vram, .buf, .mode, .log] :=
  draws_of_drawn (ps := []) hx (Gpu.changesOnly_refl _ _) hd hf (by simp) (by simp) (by simp)

/-- The page of a textured polygon in GPUSTAT: bits 8:0 the page word's upper half, the rest as it was (R479). -/
theorem setStat_page (g : Gpu) (w : Word) :
    (g.setStat 0x1FF#32 (w >>> 16)).stat.extractLsb' 9 23 = g.stat.extractLsb' 9 23 ∧
      (g.setStat 0x1FF#32 (w >>> 16)).stat.extractLsb' 0 9 = w.extractLsb' 16 9 := by
  constructor
  · simp only [Gpu.setStat, BitVec.extractLsb'_or, BitVec.extractLsb'_and]
    exact (congrArg (_ ||| ·) BitVec.and_zero).trans (BitVec.or_zero.trans BitVec.and_allOnes)
  · simp only [Gpu.setStat, BitVec.extractLsb'_or, BitVec.extractLsb'_and]
    refine (congrArg (· ||| _) BitVec.and_zero).trans (BitVec.zero_or.trans (BitVec.and_allOnes.trans ?_))
    ext i hi
    simp

theorem pageWord_eq (sh : Bool) (ws : List Word) : pageWord sh ws = ws.getD (if sh then 4 else 3) 0 := by
  cases sh <;> rfl

/-- Settles O34: fill, copy, line, rectangle and polygon draw and log; the page is set before a textured polygon is
drawn. -/
theorem gp0Drawing : Obligations.Gp0Drawing := by
  intro sh q tx se ra i2 i0 z c p w r ws s
  refine ⟨draws_of_drawn_started rfl (Drawn.fill _ _ _ _ _ _) rfl,
    draws_of_drawn_started rfl (Drawn.copy _ _ _ _ _ _ _) rfl, ?line, ?rect, ?flat, ?textured, ?page⟩
  case line =>
    obtain ⟨h, r, hd, hf⟩ := drawLine_drawn s.params.interp sh se (c.setWidth 32) ws _
    exact draws_of_drawn_started rfl hd hf
  case rect =>
    obtain ⟨h, r, hd, hf⟩ := drawRect_drawn z tx se ra (c.setWidth 32) ws _
    exact draws_of_drawn_started rfl hd hf
  case flat =>
    obtain ⟨h, r, hd, hf⟩ := polygon_drawn s.params.interp sh q false se ra (c.setWidth 32) ws _
    exact draws_of_drawn_started rfl hd hf
  case textured =>
    obtain ⟨h, r, hd, hf⟩ := polygon_drawn s.params.interp sh q true se ra (c.setWidth 32) ws _
    exact draws_of_drawn rfl (Gpu.changesOnly_setStat _ _ _) hd hf (by simp) (by simp) (by simp)
  case page =>
    obtain ⟨h, r, hd, hf⟩ := polygon_drawn s.params.interp sh q true se ra (c.setWidth 32) ws
      (s.gpu.started (.gp0Polygon sh q true se ra c ws))
    have run : exec (.gp0Polygon sh q true se ra c ws) s = .next (s.setGpu (h.logRegion r)) := by rw [← hf]; rfl
    have stat : h.stat = (s.gpu.setStat 0x1FF#32 (pageWord sh ws >>> 16)).stat := by rw [hd.rest]; rfl
    refine ⟨_, run, ?_⟩
    rw [← pageWord_eq, State.setGpu_gpu, Gpu.logRegion, stat]
    exact setStat_page _ _

/-! ## Fill -/

/-- What one round of a loop brings about and every round keeps, the loop brings about. -/
theorem countUp_reaches {α : Type} {P : α → Prop} {f : Nat → α → α} {n k : Nat} (hk : k < n)
    (hit : ∀ a, P (f k a)) (keep : ∀ i a, P a → P (f i a)) (a : α) : P (countUp n f a) := by
  induction n with
  | zero => omega
  | succ n ih =>
    rcases Nat.lt_succ_iff_lt_or_eq.mp hk with hk | rfl
    · exact keep n _ (ih hk)
    · exact hit _

/-- A pixel that has a colour has it still where that colour is written. -/
theorem pixel_setPixel_keeps {g : Gpu} {x y : Nat} {p : Half} (h : g.pixel x y = p) (x' y' : Nat) :
    (g.setPixel x' y' p).pixel x y = p := by
  by_cases e : x % 1024 = x' % 1024 ∧ y % 512 = y' % 512
  · exact pixel_setPixel_same g p e.1 e.2
  · rw [pixel_setPixel_other g p e, h]

/-- A filled rectangle has the colour: the round of its pixel writes it, and no other round takes it away. -/
theorem pixel_fill (g : Gpu) (x0 y0 : Nat) {w h i j : Nat} (p : Half) (hi : i < w) (hj : j < h) :
    (g.fill x0 y0 w h p).pixel (x0 + i) (y0 + j) = p := by
  let P (k : Gpu) : Prop := k.pixel (x0 + i) (y0 + j) = p
  have keep (y k : _) (e : P k) : P (countUp w (fun dx g => g.setPixel (x0 + dx) y p) k) :=
    countUp_keeps (P := P) (fun _ _ _ e => pixel_setPixel_keeps e _ _) e
  have row (k : Gpu) : P (countUp w (fun dx g => g.setPixel (x0 + dx) (y0 + j) p) k) :=
    countUp_reaches (P := P) hi (fun _ => pixel_setPixel_same _ p rfl rfl) (fun _ _ e => pixel_setPixel_keeps e _ _) k
  exact countUp_reaches (P := P) hj row (fun _ _ => keep _ _) g

theorem pixel_mod (g : Gpu) (x y : Nat) : g.pixel (x % 1024) (y % 512) = g.pixel x y := by
  simp [Gpu.pixel, vramIndex]

/-- A channel of a colour word cut to its five upper bits. -/
theorem ofNat_channel (w : Word) (lo : Nat) :
    BitVec.ofNat 16 (bitsAt w lo 8 / 8) = (w.extractLsb' (lo + 3) 5).setWidth 16 := by
  apply BitVec.eq_of_toNat_eq
  rw [BitVec.toNat_setWidth_of_le (by decide), toNat_field, BitVec.toNat_ofNat, bitsAt, toNat_field, Nat.pow_add,
    ← Nat.div_div_eq_div_mul]
  omega

/-- `to15` of a command colour, field by field (R438). -/
theorem to15_colour (c : BitVec 24) : to15 (red (c.setWidth 32)) (green (c.setWidth 32)) (blue (c.setWidth 32)) =
    0#1 ++ c.extractLsb' 19 5 ++ c.extractLsb' 11 5 ++ c.extractLsb' 3 5 := by
  simp only [to15, red, green, blue, ofNat_channel]
  apply BitVec.eq_of_getLsbD_eq
  intro i hi
  rw [BitVec.getLsbD_append, BitVec.getLsbD_append, BitVec.getLsbD_append]
  interval_cases i <;> simp

/-- Settles O35: a fill draws in its rectangle alone, and there every pixel is written with the colour. -/
theorem fillPixels : Obligations.FillPixels := by
  intro c p w s x0 y0 wd ht
  have hd := Drawn.fill (s.gpu.started (.gp0Fill c p w)) x0 y0 wd ht
    (to15 (red (c.setWidth 32)) (green (c.setWidth 32)) (blue (c.setWidth 32)))
  obtain ⟨-, buf, -, -, -, -, -, -, -, -, -, -, -, -, -, -, -, log, -⟩ := hd.regs
  refine ⟨rfl, _, rfl, ?log, fun x y hx hy => ⟨?inside, fun hout => ?outside⟩⟩
  case log => exact congrArg₂ (fun l b => l ++ [LogEntry.mk b ⟨x0, y0, wd, ht⟩]) log buf
  case inside =>
    rintro ⟨i, j, hi, hj, rfl, rfl⟩
    rw [pixel_mod, ← to15_colour]
    exact pixel_fill _ x0 y0 _ hi hj
  case outside =>
    refine hd.outside x y ?_
    rwa [Nat.mod_eq_of_lt hx, Nat.mod_eq_of_lt hy]

/-! ## The drawing area -/

/-- A command that draws inside the drawing area leaves the pixels outside it as they were. -/
theorem pixel_outside_area {s t : State} {i : Instr} {f : Gpu → Gpu} {ps : List GpuPart} {g h : Gpu} {r : Rect}
    {x y : Nat} (hx : exec i s = gp0Run i f s) (hstart : (s.gpu.started i).changesOnly ps g)
    (hd : Drawn (Drawn.area g) g h) (hf : f (s.gpu.started i) = h.logRegion r) (ht : .areaTl ∉ ps) (hb : .areaBr ∉ ps)
    (hv : .vram ∉ ps) (hnext : exec i s = .next t) (hout : ¬Drawn.area s.gpu (x % 1024) (y % 512)) :
    t.gpu.pixel x y = s.gpu.pixel x y := by
  have run : exec i s = .next (s.setGpu (h.logRegion r)) := by rw [hx, ← hf]; rfl
  obtain rfl := Host.Outcome.next.inj (hnext.symm.trans run)
  have tl : g.areaTl = s.gpu.areaTl := hstart .areaTl ht
  have br : g.areaBr = s.gpu.areaBr := hstart .areaBr hb
  have area : Drawn.area g = Drawn.area s.gpu := by funext; simp [Drawn.area, tl, br]
  calc h.pixel x y = g.pixel x y := hd.outside x y (by rwa [area])
    _ = s.gpu.pixel x y := (hstart .vram hv).2 x y

/-- Settles O36: each of the three primitives draws inside the area of the unit it starts from. -/
theorem drawingAreaRespected : Obligations.DrawingAreaRespected := by
  intro sh q tx se ra i2 i0 z c ws s t i hi hnext x y hx hy hout
  have out : ¬Drawn.area s.gpu (x % 1024) (y % 512) := by rwa [Nat.mod_eq_of_lt hx, Nat.mod_eq_of_lt hy]
  have same (g : Gpu) : g.changesOnly [] g := Gpu.changesOnly_refl _ g
  simp only [List.mem_cons, List.not_mem_nil, or_false] at hi
  rcases hi with rfl | rfl | rfl
  case inl =>
    obtain ⟨h, r, hd, hf⟩ := polygon_drawn s.params.interp sh q tx se ra (c.setWidth 32) ws _
    refine pixel_outside_area (ps := [.stat]) rfl ?_ hd hf (by simp) (by simp) (by simp) hnext out
    cases tx
    · exact Gpu.changesOnly_refl _ _
    · exact Gpu.changesOnly_setStat _ _ _
  case inr.inl =>
    obtain ⟨h, r, hd, hf⟩ := drawLine_drawn s.params.interp sh se (c.setWidth 32) ws _
    exact pixel_outside_area rfl (same _) hd hf (by simp) (by simp) (by simp) hnext out
  case inr.inr =>
    obtain ⟨h, r, hd, hf⟩ := drawRect_drawn z tx se ra (c.setWidth 32) ws _
    exact pixel_outside_area rfl (same _) hd hf (by simp) (by simp) (by simp) hnext out

end Sys2Proof.Machine

/-!
PROOFS. The statement about interpolation (47_gpu_commands.md R474, R476): a weighted mean lies between the values it
is taken of, and the free functions are cut to that range.
-/

namespace Sys2Proof.Machine

/-! ## Along a line -/

/-- The formula of R476 is a mean of the two ends. -/
theorem lineMean_bounds {c0 c1 j n : Nat} (hj : j ≤ n) (hn : 0 < n) :
    min c0 c1 ≤ (c0 * (n - j) + c1 * j) / n ∧ (c0 * (n - j) + c1 * j) / n ≤ max c0 c1 := by
  have steps : n - j + j = n := Nat.sub_add_cancel hj
  constructor
  · rw [Nat.le_div_iff_mul_le hn]
    calc min c0 c1 * n = min c0 c1 * (n - j) + min c0 c1 * j := by rw [← Nat.mul_add, steps]
      _ ≤ c0 * (n - j) + c1 * j := by gcongr <;> simp
  · refine Nat.div_le_of_le_mul ?_
    calc c0 * (n - j) + c1 * j ≤ max c0 c1 * (n - j) + max c0 c1 * j := by gcongr <;> simp
      _ = n * max c0 c1 := by rw [← Nat.mul_add, steps, Nat.mul_comm]

theorem lineColour_bounds (k : Interp) {c0 c1 j n : Nat} (hj : j ≤ n) :
    min c0 c1 ≤ lineColour k c0 c1 j n ∧ lineColour k c0 c1 j n ≤ max c0 c1 := by
  unfold lineColour
  by_cases he : c0 = c1
  · simp [he]
  by_cases hn : n = 0
  · simp only [he, hn, if_false, if_true]; omega
  cases k with
  | barycentric => simpa [he, hn] using lineMean_bounds hj (Nat.pos_of_ne_zero hn)
  | free => simp only [he, hn, if_false]; split_ifs <;> omega

/-- The first end's colour (R476). -/
theorem lineColour_start (k : Interp) (c0 c1 : Nat) {n : Nat} (hn : 0 < n) : lineColour k c0 c1 0 n = c0 := by
  have hn' := Nat.ne_of_gt hn
  cases k <;> simp [lineColour, hn', Nat.mul_div_cancel _ hn]

/-- The last end's colour (R476). -/
theorem lineColour_end (k : Interp) (c0 c1 : Nat) {n : Nat} (hn : 0 < n) : lineColour k c0 c1 n n = c1 := by
  have hn' := Nat.ne_of_gt hn
  by_cases he : c0 = c1
  · simp [lineColour, he]
  · cases k <;> simp [lineColour, he, hn', Nat.mul_div_cancel _ hn]

theorem lineColour_default {c0 c1 j n : Nat} (hj : j ≤ n) (hn : 0 < n) :
    lineColour .barycentric c0 c1 j n = (c0 * (n - j) + c1 * j) / n := by
  by_cases he : c0 = c1
  · have := lineMean_bounds (c0 := c0) (c1 := c1) hj hn
    simp only [lineColour, if_pos he]
    omega
  · simp [lineColour, he, Nat.ne_of_gt hn]

/-! ## Inside a triangle -/

section
variable {w0 w1 w2 : Int} {a0 a1 a2 : Nat} (h0 : 0 ≤ w0) (h1 : 0 ≤ w1) (h2 : 0 ≤ w2) (hpos : 0 < w0 + w1 + w2)
include h0 h1 h2 hpos

/-- The barycentric formula of R474 is a mean of the three values. -/
theorem triangleMean_bounds {lo hi : Nat} (l0 : lo ≤ a0) (l1 : lo ≤ a1) (l2 : lo ≤ a2) (u0 : a0 ≤ hi) (u1 : a1 ≤ hi)
    (u2 : a2 ≤ hi) : (lo : Int) ≤ (w0 * a0 + w1 * a1 + w2 * a2) / (w0 + w1 + w2) ∧
      (w0 * a0 + w1 * a1 + w2 * a2) / (w0 + w1 + w2) ≤ hi := by
  constructor
  · rw [Int.le_ediv_iff_mul_le hpos]
    calc (lo : Int) * (w0 + w1 + w2) = w0 * lo + w1 * lo + w2 * lo := by ring
      _ ≤ w0 * a0 + w1 * a1 + w2 * a2 := by gcongr
  · refine Int.ediv_le_of_le_mul hpos ?_
    calc w0 * a0 + w1 * a1 + w2 * a2 ≤ w0 * hi + w1 * hi + w2 * hi := by gcongr
      _ = hi * (w0 + w1 + w2) := by ring

theorem interpolated_bounds (k : Interp) :
    min a0 (min a1 a2) ≤ interpolated k (w0 + w1 + w2) w0 w1 w2 a0 a1 a2 ∧
      interpolated k (w0 + w1 + w2) w0 w1 w2 a0 a1 a2 ≤ max a0 (max a1 a2) := by
  cases k with
  | barycentric =>
    have := triangleMean_bounds (a0 := a0) (a1 := a1) (a2 := a2) (lo := min a0 (min a1 a2))
      (hi := max a0 (max a1 a2)) h0 h1 h2 hpos
    simp only [interpolated]
    omega
  | free => simp only [interpolated]; split_ifs <;> omega

end

/-- At the first vertex the other weights are 0 (R474). -/
theorem interpolated_first (k : Interp) {w : Int} (hw : 0 < w) (a0 a1 a2 : Nat) :
    interpolated k (w + 0 + 0) w 0 0 a0 a1 a2 = a0 := by
  cases k with
  | barycentric => simp [interpolated, Int.mul_ediv_cancel_left _ hw.ne']
  | free => simp [interpolated]

theorem interpolated_second (k : Interp) {w : Int} (hw : 0 < w) (a0 a1 a2 : Nat) :
    interpolated k (0 + w + 0) 0 w 0 a0 a1 a2 = a1 := by
  cases k with
  | barycentric => simp [interpolated, Int.mul_ediv_cancel_left _ hw.ne']
  | free => simp [interpolated, hw.ne']; omega

theorem interpolated_third (k : Interp) {w : Int} (hw : 0 < w) (a0 a1 a2 : Nat) :
    interpolated k (0 + 0 + w) 0 0 w a0 a1 a2 = a2 := by
  cases k with
  | barycentric => simp [interpolated, Int.mul_ediv_cancel_left _ hw.ne']
  | free => simp [interpolated, hw.ne']; omega

/-- Settles O37: the bounds of a mean and of a value cut to them, and the values at an end and at a vertex; a common
value follows from the bounds. -/
theorem interpolationBounds : Obligations.InterpolationBounds := by
  refine ⟨fun k c0 c1 j n hj => ?line, fun k w0 w1 w2 a0 a1 a2 h0 h1 h2 hpos => ?triangle⟩
  case line =>
    intro v
    obtain ⟨lower, upper⟩ := lineColour_bounds k (c0 := c0) (c1 := c1) hj
    refine ⟨lower, upper, ?_, ?_, ?_, ?_⟩
    · rintro hn rfl; exact lineColour_start k c0 c1 hn
    · rintro hn rfl; exact lineColour_end k c0 c1 hn
    · intro he; exact if_pos he
    · rintro rfl hn; exact lineColour_default hj hn
  case triangle =>
    intro v
    obtain ⟨lower, upper⟩ := interpolated_bounds (a0 := a0) (a1 := a1) (a2 := a2) h0 h1 h2 hpos k
    refine ⟨lower, upper, ?_, ?_, ?_, ?_⟩
    · rintro rfl rfl; exact interpolated_first k (by omega) a0 a1 a2
    · rintro rfl rfl; exact interpolated_second k (by omega) a0 a1 a2
    · rintro rfl rfl; exact interpolated_third k (by omega) a0 a1 a2
    · omega

end Sys2Proof.Machine

/-!
PROOFS. The statement about the halts of the graphics ports and of the DMA engine (47_gpu_commands.md R437, R441,
49_dma.md R571 to R578): first the ports' decoders, then one channel after another.
-/

namespace Sys2Proof.Machine

/-! ## The graphics ports -/

/-- The command bytes outside the table of GP0 (R440, R441). -/
theorem gp0Words_unknown : ∀ c : Byte,
    ((3 ≤ c.toNat ∧ c.toNat ≤ 0x1E) ∨ (0x48 ≤ c.toNat ∧ c.toNat ≤ 0x4F) ∨ (0x58 ≤ c.toNat ∧ c.toNat ≤ 0x5F) ∨
      (0x81 ≤ c.toNat ∧ c.toNat ≤ 0x9F) ∨ (0xA1 ≤ c.toNat ∧ c.toNat ≤ 0xBF) ∨ (0xC1 ≤ c.toNat ∧ c.toNat ≤ 0xDF) ∨
      c.toNat = 0xE0 ∨ 0xE7 ≤ c.toNat) → gp0Words c = none := by decide

theorem submit_unknown {w : Word} {s : State} (hm : s.gpu.mode = .idle) (hw : gp0Words (fCmd w) = none) :
    submitCommandWord w s = .fault (.unknownOpcode .graphics 0x1F801810#32 w) := by
  simp [submitCommandWord, hm, hw, gp0Port]

theorem submit_fromVram {s : State} (hm : s.gpu.mode = .fromVram) (w : Word) :
    submitCommandWord w s = .fault (.dmaDesyncError .graphics 0x1F801810#32 w) := by
  simp [submitCommandWord, hm, gp0Port]

/-- The command bytes outside the table of GP1 (R480, R441). -/
theorem decodeGp1_unknown {w : Word} (hc : (fCmd w).toNat ∉ [0, 1, 2, 3, 4, 5, 6, 7, 8, 16]) :
    decodeGp1 w = .error .gp1Command := by
  unfold decodeGp1
  split
  case h_11 => rfl
  all_goals rename_i h; simp [h] at hc

theorem runGp1_unknown {w : Word} (hc : (fCmd w).toNat ∉ [0, 1, 2, 3, 4, 5, 6, 7, 8, 16]) (s : State) :
    runGp1 w s = .fault (.unknownOpcode .graphics 0x1F801814#32 w) := by
  simp [runGp1, decodeGp1_unknown hc, gp1Port]

/-! ## The engine -/

theorem countField_toNat (v : BitVec 16) : countField v.toNat = if v = 0 then 0x10000 else v.toNat := by
  simp [countField, ← BitVec.toNat_inj]

/-- The words of a transfer from the fields of BCR (R564). -/
theorem total_eq (c : Channel) : c.total =
    (if c.bcr.extractLsb' 0 16 = 0 then 0x10000 else (c.bcr.extractLsb' 0 16).toNat) *
      (if c.sync = 0 then 1 else if c.bcr.extractLsb' 16 16 = 0 then 0x10000 else (c.bcr.extractLsb' 16 16).toNat) := by
  unfold Channel.total bitsAt
  rw [countField_toNat, countField_toNat]
  split <;> simp

theorem dmaChannel_active {n : Nat} {s : State} (h : s.dma.active n = true) : dmaChannel n s = transfer n s := if_pos h

/-- The halt of a channel, written out. -/
theorem desync_eq (n : Nat) (s : State) : desync n s =
    .fault (.dmaDesyncError .dma (BitVec.ofNat 32 (0x1F801088 + 0x10 * n)) (s.dma.readChcr n)) := by
  rw [BitVec.ofNat_add]; rfl

/-- A channel without a transfer, the reserved SYNC, and a list on a channel but 2 (R571, R578). -/
theorem transfer_refused {n : Nat} {s : State} (hn : n < 7) (h6 : n ≠ 6)
    (h : n ∈ [0, 1, 4, 5] ∨ (s.dma.chan n).sync = 3 ∨
      ((s.dma.chan n).sync = 2 ∧ (n ≠ 2 ∨ (s.dma.chan n).toDevice = false))) : transfer n s = desync n s := by
  rcases h with h | hs | ⟨hs, h⟩
  · simp only [List.mem_cons, List.not_mem_nil, or_false] at h
    rcases h with rfl | rfl | rfl | rfl <;> rfl
  · interval_cases n <;> simp_all [transfer]
  · interval_cases n <;> simp_all [transfer]

theorem transfer_three_blocks {s : State} (h : (s.dma.chan 3).sync < 2) : transfer 3 s = discBlocks s := by
  have : (s.dma.chan 3).sync = 0 ∨ (s.dma.chan 3).sync = 1 := by omega
  rcases this with h | h <;> simp [transfer, h]

theorem gpuBlocks_toGpu {s t : State} (ho : (s.dma.chan 2).toDevice = true)
    (h : repeatOut (s.dma.chan 2).total (wordToGpu (s.dma.chan 2)) s = .next t) : gpuBlocks s = endGpuTransfer t := by
  simp [gpuBlocks, ho, h, andThen]

theorem gpuBlocks_fromGpu {s t : State} (ho : (s.dma.chan 2).toDevice = false) (hm : s.gpu.mode = .fromVram)
    (h : repeatOut (s.dma.chan 2).total (wordFromGpu (s.dma.chan 2)) s = .next t) :
    gpuBlocks s = endGpuTransfer t := by
  simp [gpuBlocks, ho, hm, h, andThen]

theorem gpuBlocks_nothing {s : State} (ho : (s.dma.chan 2).toDevice = false) (hm : s.gpu.mode ≠ .fromVram) :
    gpuBlocks s = desync 2 s := by
  simp [gpuBlocks, ho, hm]

/-- A unit left busy halts the channel, whose CHCR is what it was (R575). -/
theorem endGpuTransfer_busy {s t : State} (hm : t.gpu.mode ≠ .idle)
    (hd : (t.dma.chan 2).chcr = (s.dma.chan 2).chcr) : endGpuTransfer t = desync 2 s := by
  simp [endGpuTransfer, hm, desync, Dma.readChcr, hd]

theorem discBlocks_refused {s : State}
    (h : (s.dma.chan 3).toDevice = true ∨ s.cdc.data.length < 4 * (s.dma.chan 3).total) :
    discBlocks s = desync 3 s := by
  simp [discBlocks, h]

/-- An empty node that points to itself is followed to the cap (R573; log 25). -/
theorem linkedNodes_self {a h : Word} {s : State} (hr : ramWord s a = h) (hc : bitsAt h 24 8 = 0)
    (he : h.getLsbD 23 = false) (ha : h &&& 0xFFFFFF#32 = a) (fuel : Nat) (header : Word) :
    linkedNodes fuel a header s = .error (.dmaDesyncError .dma a (if fuel = 0 then header else h)) := by
  induction fuel generalizing header with
  | zero => rfl
  | succ fuel ih =>
    simp only [linkedNodes, hr, hc, he, ha, ih, repeatOut, Bool.false_eq_true, if_false, ite_self, Nat.add_one_ne_zero]

theorem gpuList_ok {s t : State} {h : Word}
    (e : linkedNodes s.params.llCap ((s.dma.chan 2).madr.setWidth 32) 0 s = .ok (h, t)) : gpuList s =
      endGpuTransfer (t.setDma (t.dma.setChan 2 { t.dma.chan 2 with madr := h.setWidth 24 })) := by
  rw [gpuList, e]

theorem gpuList_error {s : State} {f : Fault}
    (e : linkedNodes s.params.llCap ((s.dma.chan 2).madr.setWidth 32) 0 s = .error f) : gpuList s = .fault f := by
  rw [gpuList, e]

theorem and_low24 (w : Word) : w &&& 0xFFFFFF#32 = (w.extractLsb' 0 24).setWidth 32 := by
  apply BitVec.eq_of_toNat_eq
  rw [BitVec.toNat_setWidth_of_le (by decide), toNat_field, Nat.pow_zero, Nat.div_one]
  exact Nat.and_two_pow_sub_one_eq_mod w.toNat 24

/-- Settles O40: the ports refuse what their decoders refuse; a channel that has no transfer, or whose transfer ends with
the unit busy, halts with the CHCR it had; and a list that never ends halts at the cap. -/
theorem graphicsAndDmaHalts : Obligations.GraphicsAndDmaHalts := by
  refine ⟨fun w s => ⟨fun hm => submit_fromVram hm w, fun hm hc => submit_unknown hm (gp0Words_unknown _ hc),
    fun hc => runGp1_unknown hc s⟩, fun n s hn ha => ?_⟩
  intro c sync count ba total start node halts
  have halts_of (h : transfer n s = desync n s) : halts := (dmaChannel_active ha).trans (h.trans (desync_eq n s))
  have htotal : total = c.total := (total_eq c).symm
  refine ⟨?none, ?reserved, ?list, ?nothing, ?sent, ?read, ?listed, ?loop, ?disc⟩
  case none =>
    intro h
    exact halts_of (transfer_refused hn (by omega) (.inl (by simpa using h)))
  case reserved => exact fun h6 hs => halts_of (transfer_refused hn h6 (.inr (.inl hs)))
  case list => exact fun h6 hs h => halts_of (transfer_refused hn h6 (.inr (.inr ⟨hs, h⟩)))
  case nothing =>
    rintro rfl hs ho hm
    exact halts_of ((transfer_two_blocks hs).trans (gpuBlocks_nothing ho hm))
  case sent =>
    rintro rfl hs ho t ht hm
    rw [htotal] at ht
    have last : transferLast 2 s = t := (transferLast_two_toGpu hs ho).trans (repeatLast_next ht)
    have chcr : (t.dma.chan 2).chcr = (s.dma.chan 2).chcr := by rw [← last, transferLast_dma]
    exact halts_of ((transfer_two_blocks hs).trans ((gpuBlocks_toGpu ho ht).trans (endGpuTransfer_busy hm chcr)))
  case read =>
    rintro rfl hs ho t ht hm
    by_cases hv : s.gpu.mode = .fromVram
    · rw [htotal] at ht
      have last : transferLast 2 s = t := (transferLast_two_fromGpu hs ho hv).trans (repeatLast_next ht)
      have chcr : (t.dma.chan 2).chcr = (s.dma.chan 2).chcr := by rw [← last, transferLast_dma]
      exact halts_of ((transfer_two_blocks hs).trans ((gpuBlocks_fromGpu ho hv ht).trans (endGpuTransfer_busy hm chcr)))
    · exact halts_of ((transfer_two_blocks hs).trans (gpuBlocks_nothing ho hv))
  case listed =>
    rintro rfl hs ho h t ht hm
    have last : transferLast 2 s = t := (transferLast_two_list hs ho).trans (listLast_next ht)
    refine halts_of ((transfer_two_list hs ho).trans ((gpuList_ok ht).trans (endGpuTransfer_busy hm ?_)))
    simp [← last, transferLast_dma]
  case loop =>
    rintro rfl hs ho hcount hlast hnext
    have self := linkedNodes_self (s := s) (a := start) (h := node) rfl
      (congrArg BitVec.toNat hcount) hlast (by rw [and_low24, hnext]) s.params.llCap 0
    exact (dmaChannel_active ha).trans ((transfer_two_list hs ho).trans (gpuList_error self))
  case disc =>
    rintro rfl hs h
    rw [htotal] at h
    exact halts_of ((transfer_three_blocks hs).trans (discBlocks_refused h))

end Sys2Proof.Machine

/-!
PROOFS. The statement about the transfers between the processor and VRAM (47_gpu_commands.md R460 to R466): what a word
read gives and leaves, and, pixel by pixel and word by word, what an upload has written so far.
-/

namespace Sys2Proof.Machine

/-! ## One pixel -/

@[simp] theorem pixel_advance (g : Gpu) (x y : Nat) : g.advance.pixel x y = g.pixel x y := by
  unfold Gpu.advance
  split <;> rfl

/-- An advance moves the cursor, and nothing else. -/
theorem advance_eq (g : Gpu) : g.advance = { g with cx := g.advance.cx, cy := g.advance.cy } := by
  unfold Gpu.advance
  split <;> rfl

theorem advance_cursor (g : Gpu) :
    (g.advance.cx, g.advance.cy) = if g.cx + 1 = g.rect.w then (0, g.cy + 1) else (g.cx + 1, g.cy) := by
  unfold Gpu.advance
  split <;> rfl

/-- What a pixel holds once a transfer has come to it with a halfword, under both mask bits (R462). -/
def Gpu.masked (g : Gpu) (x y : Nat) (v : Half) : Half :=
  let old := g.pixel x y
  if g.stat.getLsbD 12 = true ∧ old.getLsbD 15 = true then old
  else v ||| (if g.stat.getLsbD 11 then 0x8000#16 else 0)

theorem pixel_put_same (g : Gpu) (x y : Nat) (v : Half) : (g.put x y v).pixel x y = g.masked x y v := by
  simp only [Gpu.put, Gpu.masked, Gpu.checkMask, Gpu.forceMask, maskBit, Bool.and_eq_true]
  split
  · rfl
  · exact pixel_setPixel_same g _ rfl rfl

theorem pixel_put_other (g : Gpu) {x y x' y' : Nat} (v : Half) (h : ¬(x' % 1024 = x % 1024 ∧ y' % 512 = y % 512)) :
    (g.put x y v).pixel x' y' = g.pixel x' y' :=
  (Drawn.put (A := fun a b => a = x % 1024 ∧ b = y % 512) g x y v ⟨rfl, rfl⟩).outside x' y' h

theorem masked_congr {g h : Gpu} {x y : Nat} (hs : h.stat = g.stat) (hp : h.pixel x y = g.pixel x y) (v : Half) :
    h.masked x y v = g.masked x y v := by
  simp only [Gpu.masked, hs, hp]

theorem pixel_takePixel {g : Gpu} (hc : g.cy < g.rect.h) (v : Half) (x y : Nat) :
    (g.takePixel v).pixel x y = (g.put (g.rect.x + g.cx) (g.rect.y + g.cy) v).pixel x y := by
  rw [Gpu.takePixel, if_pos hc, pixel_advance]

/-! ## Words read from VRAM -/

theorem busRead_gp0 (s : State) : busRead 0x1F801810#32 .word s = .ok (gpuRead s) := by
  have row : owner 0x1F801810#32 .word = some ⟨0x1F801810, 8, .graphics⟩ := by decide
  simp [busRead, row, graphicsRead]

theorem getPixel_of_lt {g : Gpu} (h : g.cy < g.rect.h) :
    g.getPixel = (g.pixel (g.rect.x + g.cx) (g.rect.y + g.cy), g.advance) := if_pos h

/-- A pixel read moves the cursor, and nothing else. -/
theorem getPixel_eq (g : Gpu) : g.getPixel.2 = { g with cx := g.getPixel.2.cx, cy := g.getPixel.2.cy } := by
  unfold Gpu.getPixel
  split
  · exact advance_eq g
  · rfl

/-- A word counted off: the transfer is over at the last. -/
theorem countWord_eq {g : Gpu} (h : g.rem ≠ 0) :
    g.countWord = { g with rem := g.rem - 1, mode := if g.rem = 1 then .idle else g.mode } := by
  unfold Gpu.countWord
  by_cases h1 : g.rem = 1
  · simp [h1]
  · rw [if_neg (by omega), if_neg h1]

/-- What a GPUREAD read leaves (R466). -/
theorem send_state {g : Gpu} (h : g.rem ≠ 0) : g.send.2 =
    { g with
      cx := g.send.2.cx, cy := g.send.2.cy, rem := g.rem - 1, mode := if g.rem = 1 then .idle else g.mode
      readlatch := g.send.1 } := by
  have moved : g.getPixel.2.getPixel.2 =
      { g with cx := g.getPixel.2.getPixel.2.cx, cy := g.getPixel.2.getPixel.2.cy } := by
    rw [getPixel_eq g.getPixel.2, getPixel_eq g]
  generalize hk : g.getPixel.2.getPixel.2 = k at moved
  have rem : k.rem = g.rem := by rw [moved]
  have mode : k.mode = g.mode := by rw [moved]
  have count := countWord_eq (g := k) (by rwa [rem])
  simp only [Gpu.send, hk, count]
  rw [moved]

/-- The first pixel of a GPUREAD read is the one at the cursor, the second the next one, 0 past the end (R466). -/
theorem send_pixels {g : Gpu} (hc : g.cy < g.rect.h) :
    let next := if g.cx + 1 = g.rect.w then (0, g.cy + 1) else (g.cx + 1, g.cy)
    g.send.1 = (if next.2 < g.rect.h then g.pixel (g.rect.x + next.1) (g.rect.y + next.2) else 0) ++
      g.pixel (g.rect.x + g.cx) (g.rect.y + g.cy) := by
  intro next
  have cursor : (g.advance.cx, g.advance.cy) = next := advance_cursor g
  have rect : g.advance.rect = g.rect := by rw [advance_eq g]
  simp only [Gpu.send, getPixel_of_lt hc, ← cursor]
  congr 1
  unfold Gpu.getPixel
  rw [rect]
  split
  · exact pixel_advance g _ _
  · rfl

/-! ## The places of a rectangle -/

/-- Two places of the rectangle are two pixels of VRAM: it is no wider and no higher than VRAM. -/
theorem place_inj {x y i i' j j' : Nat} {r : Rect} (hw : r.w ≤ 1024) (hh : r.h ≤ 512) (hi : i < r.w) (hi' : i' < r.w)
    (hj : j < r.h) (hj' : j' < r.h) (hx : (x + i) % 1024 = (x + i') % 1024) (hy : (y + j) % 512 = (y + j') % 512) :
    i = i' ∧ j = j' := by omega

/-- Two places of a rectangle are two places in reading order. -/
theorem reading_inj {w i i' j j' : Nat} (hi : i < w) (hi' : i' < w) (h : j * w + i = j' * w + i') : i = i' ∧ j = j' := by
  have col : i = i' := by simpa [Nat.mul_add_mod', Nat.mod_eq_of_lt, hi, hi'] using congrArg (· % w) h
  subst col
  exact ⟨rfl, Nat.eq_of_mul_eq_mul_right (by omega) (Nat.add_right_cancel h)⟩

theorem reading_lt {w h i j : Nat} (hi : i < w) (hj : j < h) : j * w + i < w * h :=
  calc j * w + i < (j + 1) * w := by rw [Nat.add_mul]; omega
    _ ≤ h * w := Nat.mul_le_mul_right w hj
    _ = w * h := Nat.mul_comm h w

/-! ## An upload, pixel by pixel -/

/-- An upload that started from `g0` has moved the first `p` pixels, pixel `k` the halfword `half k`. -/
structure Uploading (g0 : Gpu) (half : Nat → Half) (p : Nat) (g : Gpu) : Prop where
  cursor : g.cursorAt p
  rest : g = { g0 with vram := g.vram, cx := g.cx, cy := g.cy, rem := g.rem }
  moved : ∀ i j, i < g0.rect.w → j < g0.rect.h → j * g0.rect.w + i < p →
    g.pixel (g0.rect.x + i) (g0.rect.y + j) =
      g0.masked (g0.rect.x + i) (g0.rect.y + j) (half (j * g0.rect.w + i))
  kept : ∀ x y, (¬∃ i j, i < g0.rect.w ∧ j < g0.rect.h ∧ j * g0.rect.w + i < p ∧
    x % 1024 = (g0.rect.x + i) % 1024 ∧ y % 512 = (g0.rect.y + j) % 512) → g.pixel x y = g0.pixel x y

namespace Uploading

variable {g0 g : Gpu} {half : Nat → Half} {p : Nat}

theorem start {g : Gpu} (half : Nat → Half) (h : g.cursorAt 0) : Uploading g half 0 g where
  cursor := h
  rest := rfl
  moved _ _ _ _ h := absurd h (Nat.not_lt_zero _)
  kept _ _ _ := rfl

theorem rect (u : Uploading g0 half p g) : g.rect = g0.rect := by rw [u.rest]

/-- The next pixel is moved. -/
theorem takePixel (u : Uploading g0 half p g) (hw : g0.rect.w ≤ 1024) (hh : g0.rect.h ≤ 512)
    (hp : p < g0.rect.w * g0.rect.h) : Uploading g0 half (p + 1) (g.takePixel (half p)) := by
  have hr := u.rect
  have hcy : g.cy < g0.rect.h := by rw [← hr]; exact (cursorAt_row u.cursor).mpr (by rwa [hr])
  obtain ⟨hcx, hpos, -⟩ := u.cursor
  rw [hr] at hcx hpos
  obtain ⟨c1, c2, -⟩ := takePixel_spec (half p) u.cursor
  have pixel := pixel_takePixel (by rwa [hr]) (half p) (g := g)
  rw [hr] at c1 pixel
  have place {i j : Nat} (hi : i < g0.rect.w) (h : j * g0.rect.w + i = p) : i = g.cx ∧ j = g.cy :=
    reading_inj hi hcx (h.trans hpos.symm)
  refine ⟨by rwa [Nat.min_eq_left hp] at c1, by rw [c2, u.rest], fun i j hi hj hij => ?moved, fun x y hout => ?kept⟩
  case moved =>
    rw [pixel]
    by_cases h : j * g0.rect.w + i = p
    · obtain ⟨rfl, rfl⟩ := place hi h
      rw [pixel_put_same, h]
      refine masked_congr (by rw [u.rest]) (u.kept _ _ ?_) _
      rintro ⟨i, j, hi, hj, hij, hx, hy⟩
      obtain ⟨rfl, rfl⟩ := place_inj hw hh hcx hi hcy hj hx hy
      omega
    · rw [pixel_put_other]
      · exact u.moved i j hi hj (by omega)
      · rintro ⟨hx, hy⟩
        obtain ⟨rfl, rfl⟩ := place_inj hw hh hi hcx hj hcy hx hy
        exact h hpos
  case kept =>
    rw [pixel, pixel_put_other]
    · exact u.kept x y fun ⟨i, j, hi, hj, hij, h⟩ => hout ⟨i, j, hi, hj, by omega, h⟩
    · exact fun h => hout ⟨g.cx, g.cy, hcx, hcy, by omega, h⟩

@[simp] theorem takePixel_rem (g : Gpu) (v : Half) : (g.takePixel v).rem = g.rem := by
  unfold Gpu.takePixel
  split
  · rw [advance_eq]
    show (g.put _ _ v).rem = g.rem
    rw [(Drawn.put (A := fun _ _ => True) g _ _ v trivial).rest]
  · rfl

/-- Where every pixel has been moved a further halfword is not. -/
theorem takePixel_full (u : Uploading g0 half (g0.rect.w * g0.rect.h) g) (v : Half) : g.takePixel v = g := by
  have full : ¬g.cy < g.rect.h := fun h => by
    have := (cursorAt_row u.cursor).mp h
    rw [u.rect] at this
    exact Nat.lt_irrefl _ this
  rw [Gpu.takePixel, if_neg full]

/-- The two halfwords of a data word are moved, or the one that is still missing (R462). -/
theorem takeWord (u : Uploading g0 half p g) (hw : g0.rect.w ≤ 1024) (hh : g0.rect.h ≤ 512)
    (hp : p < g0.rect.w * g0.rect.h) : Uploading g0 half (min (p + 2) (g0.rect.w * g0.rect.h))
      ((g.takePixel (half p)).takePixel (half (p + 1))) := by
  have u1 := u.takePixel hw hh hp
  by_cases h1 : p + 1 < g0.rect.w * g0.rect.h
  · rw [Nat.min_eq_left h1]
    exact u1.takePixel hw hh h1
  · have last : p + 1 = g0.rect.w * g0.rect.h := by omega
    rw [last] at u1
    rw [takePixel_full u1, Nat.min_eq_right (by omega)]
    exact u1

theorem changesOnly (u : Uploading g0 half p g) : g0.changesOnly [.transfer, .vram] g := by
  rw [u.rest]
  intro q hq; cases q <;> simp_all [Gpu.sameOn]

/-- The count and the mode are no part of what has been moved. -/
theorem recount (u : Uploading g0 half p g) (n : Nat) : Uploading g0 half p { g with rem := n } :=
  ⟨u.cursor, by conv_lhs => rw [u.rest], u.moved, u.kept⟩

end Uploading

/-! ## An upload, word by word -/

/-- Halfword `k` of a list of data words (R462). -/
def halfword (data : List Word) (k : Nat) : Half := (data.getD (k / 2) 0).extractLsb' (16 * (k % 2)) 16

theorem halfword_low {data : List Word} {n : Nat} (h : n < data.length) :
    halfword data (2 * n) = data[n].extractLsb' 0 16 := by
  simp [halfword, h]

theorem halfword_high {data : List Word} {n : Nat} (h : n < data.length) :
    halfword data (2 * n + 1) = data[n].extractLsb' 16 16 := by
  have e : (2 * n + 1) / 2 = n := by omega
  have e' : (2 * n + 1) % 2 = 1 := by omega
  simp [halfword, h, e, e']

theorem receive_of_more {g k : Gpu} {d : Word}
    (hk : (g.takePixel (d.extractLsb' 0 16)).takePixel (d.extractLsb' 16 16) = k) (hm : k.mode = .toVram)
    (h : 1 < k.rem) : g.receive d = { k with rem := k.rem - 1 } := by
  have count := countWord_eq (g := k) (by omega)
  rw [if_neg (by omega)] at count
  simp [Gpu.receive, hk, count, hm]

theorem receive_of_last {g k : Gpu} {d : Word}
    (hk : (g.takePixel (d.extractLsb' 0 16)).takePixel (d.extractLsb' 16 16) = k) (h : k.rem = 1) :
    g.receive d = { k with rem := 0, mode := .idle, log := k.log ++ [⟨k.buf, k.rect⟩] } := by
  have count := countWord_eq (g := k) (by omega)
  rw [if_pos h] at count
  simp [Gpu.receive, hk, count, Gpu.logRegion, h]

theorem submit_toVram {s : State} (hm : s.gpu.mode = .toVram) (d : Word) :
    submitCommandWord d s = .next (s.setGpu (s.gpu.receive d)) := by
  simp [submitCommandWord, hm]

theorem submitWords_snoc (ws : List Word) (w : Word) (o : Out) :
    submitWords (ws ++ [w]) o = andThen (submitWords ws o) (submitCommandWord w) := by
  simp [submitWords]

/-- A transfer to VRAM that has just been opened (R460). -/
structure Gpu.Opened (g : Gpu) : Prop where
  mode : g.mode = .toVram
  wide : g.rect.w ≤ 1024
  high : g.rect.h ≤ 512
  cursor : g.cursorAt 0
  nonempty : 0 < g.rect.w * g.rect.h
  rem : g.rem = (g.rect.w * g.rect.h + 1) / 2

theorem opened_openTransfer (g : Gpu) (corner size : Word) : (g.openTransfer .toVram corner size).Opened where
  mode := rfl
  wide := Nat.mod_lt _ (by decide)
  high := Nat.mod_lt _ (by decide)
  cursor := ⟨Nat.succ_pos _, by simp [Gpu.openTransfer], Nat.zero_le _⟩
  nonempty := Nat.mul_pos (Nat.succ_pos _) (Nat.succ_pos _)
  rem := rfl

theorem exec_gp0ToVram (a : BitVec 24) (p w : Word) (s : State) :
    ∃ o, exec (.gp0ToVram a p w) s = .next (s.setGpu o) ∧ o.Opened ∧ o.buf = encodeWords (.gp0ToVram a p w) ∧
      s.gpu.changesOnly [.mode, .buf, .transfer] o := by
  refine ⟨_, rfl, opened_openTransfer _ p w, rfl, ?_⟩
  intro q hq; cases q <;> simp_all [Gpu.sameOn, Gpu.openTransfer, Gpu.pixel]

section
variable {t : State} {data : List Word} (op : t.gpu.Opened)
include op

/-- Fewer words than are asked for: two pixels have been moved for each, and the unit still waits (R462). -/
theorem submitWords_toVram {n : Nat} (hn : n ≤ data.length) (hlt : n < t.gpu.rem) :
    ∃ g, submitWords (data.take n) (.next t) = .next (t.setGpu g) ∧ Uploading t.gpu (halfword data) (2 * n) g ∧
      g.rem = t.gpu.rem - n := by
  have count := op.rem
  induction n with
  | zero => exact ⟨t.gpu, rfl, .start _ op.cursor, rfl⟩
  | succ n ih =>
    obtain ⟨g, run, up, rem⟩ := ih (by omega) (by omega)
    have mode : g.mode = .toVram := by rw [up.rest]; exact op.mode
    have up' := up.takeWord op.wide op.high (by omega)
    rw [halfword_low hn, halfword_high hn, Nat.min_eq_left (by omega)] at up'
    have more := receive_of_more (g := g) (d := data[n]) rfl (by rw [up'.rest]; exact op.mode) (by simp; omega)
    refine ⟨g.receive data[n], ?_, by rw [more]; exact up'.recount _, by rw [more]; simp; omega⟩
    rw [List.take_succ_eq_append_getElem hn, submitWords_snoc, run, andThen, submit_toVram mode]
    rfl

/-- All the words: every pixel has been moved, and the unit is idle with one more entry in its log (R462, R494). -/
theorem submitWords_whole (hlen : data.length = t.gpu.rem) :
    ∃ g, submitWords data (.next t) = .next (t.setGpu
        { g with rem := 0, mode := .idle, log := t.gpu.log ++ [⟨t.gpu.buf, t.gpu.rect⟩] }) ∧
      Uploading t.gpu (halfword data) (t.gpu.rect.w * t.gpu.rect.h) g := by
  have count := op.rem
  have nonempty := op.nonempty
  obtain ⟨n, hn⟩ : ∃ n, data.length = n + 1 := ⟨data.length - 1, by omega⟩
  have hlt : n < data.length := by omega
  obtain ⟨g, run, up, rem⟩ := submitWords_toVram op (data := data) (n := n) (by omega) (by omega)
  have mode : g.mode = .toVram := by rw [up.rest]; exact op.mode
  have up' := up.takeWord op.wide op.high (by omega)
  rw [halfword_low hlt, halfword_high hlt, Nat.min_eq_right (by omega)] at up'
  have last := receive_of_last (g := g) (d := data[n]) rfl (by simp; omega)
  generalize (g.takePixel (data[n].extractLsb' 0 16)).takePixel (data[n].extractLsb' 16 16) = k at up' last
  have log : k.log = t.gpu.log := by rw [up'.rest]
  have buf : k.buf = t.gpu.buf := by rw [up'.rest]
  refine ⟨k, ?_, up'⟩
  calc submitWords data (.next t) = submitWords (data.take n ++ [data[n]]) (.next t) := by
        rw [← List.take_succ_eq_append_getElem hlt, ← hn, List.take_length]
    _ = .next (t.setGpu (g.receive data[n])) := by
        rw [submitWords_snoc, run, andThen, submit_toVram mode]; rfl
    _ = _ := by rw [last, log, buf, up'.rect]

end

/-- Settles O38: a read is two pixels and a count; an upload has moved two pixels for each word, and after the last
every pixel of the rectangle. -/
theorem uploadWordCount : Obligations.UploadWordCount := by
  refine ⟨fun s => ?read, fun a p w s t data ht => ?write⟩
  case read =>
    intro g next
    refine ⟨fun hm => ?_, fun hm ht => ?_⟩
    · rw [busRead_gp0, gpuRead, if_neg hm]
    · obtain ⟨q, hcur, hq, hrem⟩ := (transferring_iff g).mp ht
      have after := send_state (g := g) (by omega)
      have pixels := send_pixels ((cursorAt_row hcur).mpr hq)
      have frame : g.changesOnly [.mode, .transfer, .readlatch] g.send.2 := by
        rw [after]
        intro q hq; cases q <;> simp_all [Gpu.sameOn, Gpu.pixel]
      refine ⟨g.send.1, g.send.2, ?_, frame, by rw [after], ?_, ?_, by rw [after], by rw [after], by rw [after, hm]⟩
      · rw [busRead_gp0, gpuRead, if_pos hm]
      · rw [pixels]; exact BitVec.extractLsb'_append_eq_right
      · rw [pixels]; exact BitVec.extractLsb'_append_eq_left
  case write =>
    obtain ⟨o, run, op, buf, frame⟩ := exec_gp0ToVram a p w s
    obtain rfl : s.setGpu o = t := Host.Outcome.next.inj (run.symm.trans ht)
    have log : o.log = s.gpu.log := frame .log (by simp)
    refine ⟨fun hlt => ?few, fun hlen => ?all⟩
    case few =>
      obtain ⟨g, run, up, rem⟩ := submitWords_toVram (t := s.setGpu o) op le_rfl hlt
      rw [List.take_length] at run
      exact ⟨_, run, by rw [up.rest]; exact op.mode, rem, by rw [up.rest]; exact log⟩
    case all =>
      obtain ⟨g, run, up⟩ := submitWords_whole (t := s.setGpu o) op hlen
      have pixel (x y : Nat) : o.pixel x y = s.gpu.pixel x y := (frame .vram (by simp)).2 x y
      have stat : o.stat = s.gpu.stat := frame .stat (by simp)
      refine ⟨_, run, rfl, ?entry, changesOnly_setGpu s _, ?only, fun i j hi hj => ?moved, fun x y hx hy hout => ?kept⟩
      case entry =>
        show o.log ++ [⟨o.buf, o.rect⟩] = _
        rw [log, buf]
        rfl
      case only =>
        refine Gpu.changesOnly_trans (Gpu.changesOnly_mono frame (by simp))
          (Gpu.changesOnly_trans (Gpu.changesOnly_mono up.changesOnly (by simp)) ?_)
        intro q hq; cases q <;> simp_all [Gpu.sameOn, Gpu.pixel]
      case moved => exact (up.moved i j hi hj (reading_lt hi hj)).trans (masked_congr stat (pixel _ _) _)
      case kept =>
        refine (up.kept x y fun ⟨i, j, hi, hj, _, hxi, hyj⟩ => hout ⟨i, j, hi, hj, ?_, ?_⟩).trans (pixel x y)
        · rwa [Nat.mod_eq_of_lt hx] at hxi
        · rwa [Nat.mod_eq_of_lt hy] at hyj

end Sys2Proof.Machine

/-!
PROOFS. The statements about reset, traps, exceptions and interrupts (60_exceptions.md, 70_reset_and_hazards.md). First
when an addition or subtraction overflows, and what a misaligned access does; then when an interrupt is pending; last
what no step changes.
-/

namespace Sys2Proof.Machine

/-! ## Reset and traps -/

/-- Settles O1: every value as the reset state has it. -/
theorem resetProcessor : Obligations.ResetProcessor := ⟨rfl, rfl, rfl, rfl, rfl, rfl, rfl⟩

/-- Settles O22: both raise, whatever the code field. -/
theorem traps : Obligations.Traps := fun _ s => ⟨raise_entered .sys s, raise_entered .bp s⟩

/-! ## Trapping arithmetic -/

/-- The exact result is a signed 32-bit number. -/
def fitsWord (x : Int) : Prop := -(2 ^ 31) ≤ x ∧ x ≤ 2 ^ 31 - 1

theorem addOverflows_iff (x y : Word) : addOverflows x y = true ↔ ¬fitsWord (x.toInt + y.toInt) := by
  have same : addOverflows x y = x.saddOverflow y := (BitVec.saddOverflow_eq x y).symm
  rw [same, BitVec.saddOverflow, fitsWord, Bool.or_eq_true, decide_eq_true_iff, decide_eq_true_iff]
  omega

theorem subOverflows_iff (x y : Word) : subOverflows x y = true ↔ ¬fitsWord (x.toInt - y.toInt) := by
  have same : subOverflows x y = x.ssubOverflow y := by
    rw [BitVec.ssubOverflow_eq]
    simp only [subOverflows, BitVec.msb_eq_getLsbD_last]
    cases x.getLsbD 31 <;> cases y.getLsbD 31 <;> simp
  rw [same, BitVec.ssubOverflow, fitsWord, Bool.or_eq_true, decide_eq_true_iff, decide_eq_true_iff]
  omega

/-- A result is written or traps by the exact number it stands for. -/
theorem writeUnlessOverflow_of_iff {o : Bool} {v : Word} {x : Int} (ho : o = true ↔ ¬fitsWord x)
    (hv : v = BitVec.ofInt 32 x) (d : RegNum) (s : State) :
    if -(2 ^ 31) ≤ x ∧ x ≤ 2 ^ 31 - 1 then writeUnlessOverflow o d v s = .next (s.setReg d (BitVec.ofInt 32 x))
    else ∃ t, writeUnlessOverflow o d v s = .next t ∧ s.entered .ov t := by
  split <;> rename_i fits
  · rw [writeUnlessOverflow, if_neg fun h => ho.1 h fits]
    exact writeResult_of_eq hv s
  · rw [writeUnlessOverflow, if_pos (ho.2 fits)]
    exact raise_entered .ov s

/-- Settles O7: each of the three is a write that overflows exactly when its exact result does not fit. -/
theorem trappingArithmetic : Obligations.TrappingArithmetic := by
  intro d a b imm s p hp
  simp only [List.mem_cons, List.not_mem_nil, or_false] at hp
  rcases hp with rfl | rfl | rfl
  · exact writeUnlessOverflow_of_iff (addOverflows_iff _ _) (add_eq_ofInt _ _) d s
  · exact writeUnlessOverflow_of_iff (subOverflows_iff _ _) (sub_eq_ofInt _ _) d s
  · exact writeUnlessOverflow_of_iff (toInt_simm imm ▸ addOverflows_iff _ (simm imm)) (add_simm_eq_ofInt _ imm) d s

/-! ## Misaligned accesses -/

theorem not_aligned_half {va : Word} (h : va.toNat % 2 ≠ 0) : misaligned va .half = true := by
  rw [misaligned_half, decide_eq_true_iff]; exact h

theorem not_aligned_word {va : Word} (h : va.toNat % 4 ≠ 0) : misaligned va .word = true := by
  rw [misaligned_word, decide_eq_true_iff]; exact h

/-- The alignment of a read is tested before the bus is. -/
theorem memRead_misaligned {va : Word} {n : Width} (h : misaligned va n = true) (s : State)
    (k : Word → State → Out) : ∃ t, memRead va n s k = .next t ∧ s.entered (.adEL va) t := by
  rw [memRead, if_pos h]
  exact raise_entered _ s

/-- The alignment of a write is tested before SR.IsC and the bus are. -/
theorem memWrite_misaligned {va : Word} {n : Width} (h : misaligned va n = true) (v : Word) (s : State) :
    ∃ t, memWrite va n v s = .next t ∧ s.entered (.adES va) t := by
  rw [memWrite, if_pos h]
  exact raise_entered _ s

/-- What SWL and SWR do reaches neither coprocessor 0 nor the pc nor the step record. -/
theorem changesOnly_storeMerged {merge : Nat → Word → Word → Word} {d a : RegNum} {imm : BitVec 16} {s t : State}
    (h : storeMerged merge d a imm s = .next t) :
    s.changesOnly [.mem, .intc, .timers, .dma, .gpu, .cdc, .host] t := by
  unfold storeMerged at h
  split at h
  · cases h; exact changesOnly_refl _ _
  · obtain ⟨v, u, hr, hw⟩ := withRead_next.mp h
    exact changesOnly_trans (changesOnly_mono (changesOnly_busRead hr) (by simp)) (changesOnly_busWrite hw)

/-- Settles O18: the alignment test is an access's first, and the merged stores address an aligned word. -/
theorem misalignedAccess : Obligations.MisalignedAccess := by
  intro d a imm s
  refine ⟨fun odd => ⟨fun i hi => ?loadHalf, ?storeHalf⟩, fun off => ⟨fun i hi => ?loadWord, fun i hi => ?storeWord⟩,
    fun i hi t h => ?merged⟩
  case loadHalf =>
    simp only [List.mem_cons, List.not_mem_nil, or_false] at hi
    rcases hi with rfl | rfl <;> exact memRead_misaligned (not_aligned_half odd) s _
  case storeHalf => exact memWrite_misaligned (not_aligned_half odd) _ s
  case loadWord =>
    simp only [List.mem_cons, List.not_mem_nil, or_false] at hi
    rcases hi with rfl | rfl <;> exact memRead_misaligned (not_aligned_word off) s _
  case storeWord =>
    simp only [List.mem_cons, List.not_mem_nil, or_false] at hi
    rcases hi with rfl | rfl <;> exact memWrite_misaligned (not_aligned_word off) _ s
  case merged =>
    simp only [List.mem_cons, List.not_mem_nil, or_false] at hi
    have frame : s.changesOnly [.mem, .intc, .timers, .dma, .gpu, .cdc, .host] t := by
      rcases hi with rfl | rfl <;> exact changesOnly_storeMerged h
    exact ⟨frame .cop0 (by simp), frame .pc (by simp), frame .stage (by simp)⟩

/-! ## Pending interrupts (R620) -/

/-- An interrupt is pending in `s` on the I_STAT bits `istat` and the two software requests of `soft`. -/
def State.pendingOn (s : State) (istat : BitVec 11) (soft : Word) : Bool :=
  s.cop0.sr.getLsbD 0 &&
    ((s.cop0.sr.getLsbD 8 && soft.getLsbD 8) || (s.cop0.sr.getLsbD 9 && soft.getLsbD 9) ||
      (s.cop0.sr.getLsbD 10 && decide (istat &&& s.intc.imask ≠ 0)))

/-- CAUSE[15:11] reads 0. -/
theorem getLsbD_readCause_unwired (s : State) {i : Nat} (lo : 11 ≤ i) (hi : i < 16) :
    s.readCause.getLsbD i = false := by
  interval_cases i <;> cases h : s.ip2 <;> simp [State.readCause, h]

/-- CAUSE[9:8] reads as it is stored. -/
theorem getLsbD_readCause_software (s : State) {i : Nat} (lo : 8 ≤ i) (hi : i < 10) :
    s.readCause.getLsbD i = s.cop0.cause.getLsbD i := by
  interval_cases i <;> cases h : s.ip2 <;> simp [State.readCause, h]

/-- Bit `i` is set in both SR and CAUSE as it reads. -/
def State.requested (s : State) (i : Nat) : Bool := s.cop0.sr.getLsbD i && s.readCause.getLsbD i

theorem getLsbD_requests (s : State) {i : Nat} (hi : i < 8) :
    (s.cop0.sr.extractLsb' 8 8 &&& s.readCause.extractLsb' 8 8).getLsbD i = s.requested (8 + i) := by
  simp [State.requested, hi]

/-- Of the eight request bits only the two software requests and the hardware line can be set. -/
theorem requests_eq_zero_iff (s : State) : s.cop0.sr.extractLsb' 8 8 &&& s.readCause.extractLsb' 8 8 = 0#8 ↔
    (s.requested 8 || s.requested 9 || s.requested 10) = false := by
  refine ⟨fun h => ?_, fun h => BitVec.eq_of_getLsbD_eq fun i hi => ?_⟩
  · have off (i : Nat) (hi : i < 8) : s.requested (8 + i) = false := by
      rw [← getLsbD_requests s hi, h, BitVec.getLsbD_zero]
    rw [off 0 (by decide), off 1 (by decide), off 2 (by decide)]
    rfl
  · obtain ⟨⟨h8, h9⟩, h10⟩ := by simpa only [Bool.or_eq_false_iff] using h
    rw [getLsbD_requests s hi, BitVec.getLsbD_zero]
    rcases Nat.lt_or_ge i 3 with wired | unwired
    · interval_cases i
      exacts [h8, h9, h10]
    · rw [State.requested, getLsbD_readCause_unwired s (by omega) (by omega), Bool.and_false]

theorem interruptPending_eq (s : State) : s.interruptPending = s.pendingOn s.intc.istat s.cop0.cause := by
  have pending : (s.cop0.sr.extractLsb' 8 8 &&& s.readCause.extractLsb' 8 8 != 0) =
      (s.requested 8 || s.requested 9 || s.requested 10) := by
    rw [Bool.eq_iff_iff, bne_iff_ne]
    exact (requests_eq_zero_iff s).not.trans (by rw [Bool.not_eq_false])
  rw [State.interruptPending, pending, State.iec, State.pendingOn, State.requested, State.requested, State.requested,
    getLsbD_10_readCause, getLsbD_readCause_software s le_rfl (by decide),
    getLsbD_readCause_software s (by decide) (by decide)]

/-- MTC0 to CAUSE: the requests it leaves are those of the register, all else in the test is as before. -/
theorem pendingOn_mtc0_cause (s : State) (v : Word) : ∃ m,
    State.writeCop0 s.cop0 13#5 v = some { s.cop0 with cause := m } ∧
      ∀ istat, (s.setCop0 { s.cop0 with cause := m }).pendingOn istat m = s.pendingOn istat v := by
  obtain ⟨m, written, requests, -⟩ := writeCop0_cause s.cop0 v
  have low : m.getLsbD 8 = v.getLsbD 8 := by simpa using congrArg (BitVec.getLsbD · 0) requests
  have high : m.getLsbD 9 = v.getLsbD 9 := by simpa using congrArg (BitVec.getLsbD · 1) requests
  exact ⟨m, written, fun istat => by rw [State.pendingOn, low, high]; rfl⟩

/-- Settles O25: the test as `pendingOn`, before and after an MTC0 to CAUSE; a pending interrupt is then entered by the
last stages. -/
theorem interruptPending : Obligations.InterruptPending := by
  refine ⟨interruptPending_eq, fun a s hx => ?_⟩
  obtain ⟨m, written, pending⟩ := pendingOn_mtc0_cause s (s.reg a)
  refine ⟨_, exec_mtc0_of_some written, (interruptPending_eq _).trans (pending _), fun hp => ?_⟩
  have tested : (s.setCop0 { s.cop0 with cause := m }).testedIrqs.interruptPending = true :=
    (interruptPending_eq _).trans ((pending _).trans hp)
  obtain ⟨-, -, -, entry, -⟩ := finishStages.2.2 (s.setCop0 { s.cop0 with cause := m })
  obtain ⟨-, -, -, -, -, pc, -, -, code, epc⟩ := entry hx tested
  exact ⟨pc, code, epc⟩

/-! ## What no step changes -/

/-- Two states agree on the parameters, the host's breakpoints and flags, and HALT. -/
structure State.sameFixed (s t : State) : Prop where
  params : t.params = s.params
  brk : t.host.brk = s.host.brk
  held : t.host.held = s.host.held
  attached : t.host.attached = s.host.attached
  halt : t.halt = s.halt

theorem State.sameFixed_refl (s : State) : s.sameFixed s := ⟨rfl, rfl, rfl, rfl, rfl⟩

theorem State.sameFixed.trans {s t u : State} (h : s.sameFixed t) (k : t.sameFixed u) : s.sameFixed u :=
  ⟨k.params.trans h.params, k.brk.trans h.brk, k.held.trans h.held, k.attached.trans h.attached, k.halt.trans h.halt⟩

theorem State.sameFixed_of_changesOnly {ps : List Part} {s t : State} (h : s.changesOnly ps t) (hp : .params ∉ ps)
    (hh : .host ∉ ps) (hl : .halt ∉ ps) : s.sameFixed t := by
  have eh : t.host = s.host := h .host hh
  exact ⟨h .params hp, by rw [eh], by rw [eh], by rw [eh], h .halt hl⟩

/-- None of the effects a step is made of reaches them; the host's own side of a step is its text stream and its tick
inputs. -/
theorem stepKeeps_sameFixed (s : State) : StepKeeps s.sameFixed where
  engine :=
    { ram := fun _ _ _ h => { h with }
      submit := fun _ _ _ h e =>
        h.trans (State.sameFixed_of_changesOnly (changesOnly_submit e) (by simp) (by simp) (by simp))
      read := fun _ h =>
        h.trans (State.sameFixed_of_changesOnly (changesOnly_gpuRead _) (by simp) (by simp) (by simp))
      pop := fun _ h => { h with }
      blocks := fun _ _ h =>
        h.trans (State.sameFixed_of_changesOnly (changesOnly_finishBlocks _ _) (by simp) (by simp) (by simp))
      complete := fun _ _ _ h => { h with }
      madr := fun _ _ h => { h with } }
  latched _ h := { h with }
  staged _ _ h := { h with }
  wrote _ _ _ h := { h with }
  landed _ _ _ h := { h with }
  hi _ _ h := { h with }
  lo _ _ h := { h with }
  pc _ _ h := { h with }
  posted _ _ _ h := { h with }
  branched _ _ h := { h with }
  entered _ _ _ _ h := { h with }
  cop0 _ _ _ _ _ h := { h with }
  returned _ h := { h with }
  gte _ _ h := { h with }
  mem _ _ _ _ h := { h with }
  irq _ _ _ _ h := { h with }
  acked _ _ h := { h with }
  masked _ _ h := { h with }
  dmaReg _ _ _ h := { h with }
  timers _ _ h := { h with }
  cdc _ _ _ h := { h with }
  gp1 _ _ _ h e :=
    h.trans (State.sameFixed_of_changesOnly (changesOnly_runGp1 e) (by simp) (by simp) (by simp))
  blank _ _ h := { h with }
  host _ _ held attached brk h :=
    ⟨h.params, brk.trans h.brk, held.trans h.held, attached.trans h.attached, h.halt⟩

/-- Settles O53: the disc stays in with its sectors, and no effect of a step reaches the rest. -/
theorem stepKeepsFixed : Obligations.StepKeepsFixed := by
  intro s t h
  have fixed := (stepKeeps_sameFixed s).step s.sameFixed_refl h
  exact ⟨fixed.params, (step_keepsSound h).disc.1, fixed.brk, fixed.held, fixed.attached, fixed.halt⟩

end Sys2Proof.Machine

/-!
PROOFS. The statements about the disc controller's commands (48_cdrom_commands.md). First what `disc_advance` does with
the head of the queue, and what a delivery leaves of the queue; then the answer a command queues at its write; then a
read from its command to its sector.
-/

namespace Sys2Proof.Machine

/-! ## `disc_advance` (R512) -/

theorem raiseIrq_false (s : State) (n : Nat) : s.raiseIrq n false = s := by simp [State.raiseIrq, State.setIntc]

/-- The state after the delivery of an event, the queue without it. -/
def State.delivered (s : State) (rest : List Event) (k : EventKind) : State :=
  let r := { s.cdc with queue := rest }.deliver s.params k
  (s.raiseIrq 2 (r.2 && r.1.enabled)).setCdc r.1

/-- What `disc_advance` can do: nothing, deliver the head, or count it down. -/
theorem discAdvance_cases (n : Nat) (s : State) :
    discAdvance n s = s ∨
      (∃ e rest, s.cdc.queue = e :: rest ∧ (s.cdc.iflag = 0 ∨ e.kind = .playTick) ∧
        discAdvance n s = s.delivered rest e.kind) ∨
      ∃ e rest, s.cdc.queue = e :: rest ∧
        discAdvance n s = s.setCdc { s.cdc with queue := { e with delay := e.delay - n } :: rest } := by
  unfold discAdvance
  split
  · exact .inl rfl
  · rename_i e rest hq
    split
    · rename_i due
      exact .inr (.inl ⟨e, rest, hq, due.2, rfl⟩)
    · exact .inr (.inr ⟨e, rest, hq, by simp [Cdc.countDown, hq]⟩)

section
variable {n : Nat} {s : State} {e : Event} {rest : List Event}

theorem discAdvance_delivers {d : Nat} {k : EventKind} {c : Cdc} {b : Bool} (hq : s.cdc.queue = ⟨d, k⟩ :: rest)
    (due : d ≤ n) (hi : s.cdc.iflag = 0) (hd : { s.cdc with queue := rest }.deliver s.params k = (c, b)) :
    discAdvance n s = (s.raiseIrq 2 (b && c.enabled)).setCdc c := by
  simp only [discAdvance, hq]
  rw [if_pos ⟨Nat.sub_eq_zero_of_le due, .inl hi⟩, hd]

theorem discAdvance_counts (hq : s.cdc.queue = e :: rest) (later : n < e.delay) :
    discAdvance n s = s.setCdc { s.cdc with queue := { e with delay := e.delay - n } :: rest } := by
  simp only [discAdvance, hq]
  rw [if_neg fun h => Nat.sub_ne_zero_of_lt later h.1, Cdc.countDown, hq]

end

/-! ## Deliveries (R513, R515) -/

/-- A play tick is no response. -/
theorem deliver_playTick (p : Params) (c : Cdc) :
    ∃ m pos q, c.deliver p .playTick = ({ c with dmode := m, pos := pos, queue := q }, false) := by
  unfold Cdc.deliver
  simp only []
  split
  · split
    · exact ⟨.idle, c.pos, c.queue, rfl⟩
    · exact ⟨c.dmode, c.pos + 1, _, rfl⟩
  · exact ⟨c.dmode, c.pos, c.queue, rfl⟩

theorem queue_useTarget (c : Cdc) : c.useTarget.queue = c.queue := by
  unfold Cdc.useTarget; split <;> rfl

theorem queue_deliverAck (p : Params) (c : Cdc) (cmd : DiscCmd) (ps : List Byte) :
    ∃ l, (c.deliverAck p cmd ps).2.queue = c.queue ++ l := by
  cases cmd
  case play | readN | readS => exact ⟨_, congrArg (· ++ _) (queue_useTarget c)⟩
  case motorOn | getID | readTOC | stop | pause | init | seekL | seekP => exact ⟨_, rfl⟩
  case getTD =>
    refine ⟨[], ?_⟩
    simp only [Cdc.deliverAck, List.append_nil]
    split <;> rfl
  all_goals exact ⟨[], (List.append_nil _).symm⟩

theorem queue_deliverDone (p : Params) (c : Cdc) (cmd : DiscCmd) : (c.deliverDone p cmd).2.2.queue = c.queue := by
  cases cmd
  case seekL | seekP => exact queue_useTarget c
  case getID => simp only [Cdc.deliverDone]; split <;> rfl
  all_goals rfl

/-- A delivery takes nothing off the queue behind it. -/
theorem queue_deliver (p : Params) (c : Cdc) (k : EventKind) : ∃ l, (c.deliver p k).1.queue = c.queue ++ l := by
  have same : ∃ l, c.queue = c.queue ++ l := ⟨[], (List.append_nil _).symm⟩
  cases k with
  | ack cmd ps => exact queue_deliverAck p c cmd ps
  | err => exact same
  | done cmd => exact ⟨[], (queue_deliverDone p c cmd).trans (List.append_nil _).symm⟩
  | sector =>
    simp only [Cdc.deliver]
    split
    · split
      · exact same
      · exact ⟨_, rfl⟩
    · exact same
  | playTick =>
    simp only [Cdc.deliver]
    split
    · split
      · exact same
      · exact ⟨_, rfl⟩
    · exact same

/-- Settles O43: only a play tick is delivered over an unacknowledged kind, and it is no response. -/
theorem discWaitsForAcknowledge : Obligations.DiscWaitsForAcknowledge := by
  intro n s hi
  rcases discAdvance_cases n s with h | ⟨e, rest, hq, hk | hk, h⟩ | ⟨e, rest, hq, h⟩
  · rw [h]; exact ⟨rfl, rfl, rfl, rfl, changesOnly_refl _ s⟩
  · exact absurd hk hi
  · obtain ⟨m, pos, q, silent⟩ := deliver_playTick s.params { s.cdc with queue := rest }
    rw [h, hk, State.delivered, silent, Bool.false_and, raiseIrq_false]
    exact ⟨rfl, rfl, rfl, rfl, changesOnly_setCdc s _⟩
  · rw [h]; exact ⟨rfl, rfl, rfl, rfl, changesOnly_setCdc s _⟩

/-! ## The answer a command queues (R514, R520) -/

/-- What stays queued when a known command is written, and the first response queued behind it. -/
def Cdc.answer (c : Cdc) (cmd : DiscCmd) : List Event × EventKind :=
  if c.param.length ∉ cmd.counts then (c.queue, .err 0x20)
  else if cmd.needsDisc = true ∧ c.disc = none then (c.queue, .err 0x80)
  else
    match c.writeError cmd c.param with
    | some e => (c.queue, .err e)
    | none => (if cmd.flushes then c.queue.filter (!·.kind.isMotion) else c.queue, .ack cmd c.param)

/-- The state after a command's write, by what stays queued and the response. -/
def State.answered (s : State) (q : List Event) (k : EventKind) : State :=
  s.setCdc { s.cdc with param := [], queue := q ++ [⟨s.params.ackPred + 1, k⟩] }

theorem discCommand_eq (cmd : DiscCmd) (s : State) :
    discCommand cmd s = .next (s.answered (s.cdc.answer cmd).1 (s.cdc.answer cmd).2) := by
  have parameters : { s.cdc with param := [] }.writeError cmd s.cdc.param = s.cdc.writeError cmd s.cdc.param := by
    cases cmd <;> rfl
  simp only [discCommand, Cdc.command, parameters, Cdc.answer, State.answered, Cdc.appendFirst, Cdc.append, ackDelay]
  by_cases count : s.cdc.param.length ∈ cmd.counts
  · by_cases disc : cmd.needsDisc = true ∧ s.cdc.disc = none
    · simp [count, disc]
    · cases bad : s.cdc.writeError cmd s.cdc.param with
      | some e => simp [count, disc]
      | none => cases cmd.flushes <;> simp [count, disc]
  · simp [count]

/-- Nothing is queued anew but the response. -/
theorem queue_answer_nil {c : Cdc} (cmd : DiscCmd) (h : c.queue = []) : (c.answer cmd).1 = [] := by
  unfold Cdc.answer
  split
  · exact h
  · split
    · exact h
    · split
      · exact h
      · split
        · rw [h]; rfl
        · exact h

/-! ## Waiting for the answer (R512, 70_reset_and_hazards.md R696) -/

/-- What stands behind the head stays queued. -/
theorem mem_queue_discAdvance {n : Nat} {s : State} {e x : Event} {rest : List Event} (hq : s.cdc.queue = e :: rest)
    (hx : x ∈ rest) : x ∈ (discAdvance n s).cdc.queue := by
  rcases discAdvance_cases n s with h | ⟨e', rest', hq', -, h⟩ | ⟨e', rest', hq', h⟩
  · rw [h, hq]; exact List.mem_cons_of_mem _ hx
  · obtain ⟨rfl, rfl⟩ := List.cons.inj (hq'.symm.trans hq)
    obtain ⟨l, kept⟩ := queue_deliver s.params { s.cdc with queue := rest' } e'.kind
    rw [h, State.delivered, State.setCdc_cdc, kept]
    exact List.mem_append_left _ hx
  · obtain ⟨rfl, rfl⟩ := List.cons.inj (hq'.symm.trans hq)
    rw [h]; exact List.mem_cons_of_mem _ hx

/-- A response with a delay above CPI is still queued after the slots of the same invocation, and alone in the queue it
has changed nothing there. -/
theorem answered_waits (s : State) {q : List Event} (k : EventKind) (hq : s.cdc.queue = [] → q = []) :
    let c := (lateSlots (s.answered q k)).cdc
    c = (discAdvance (s.params.cpiPred + 1) (s.answered q k)).cdc ∧
      (s.params.cpiPred < s.params.ackPred →
        (∃ d, ⟨d, k⟩ ∈ c.queue) ∧ (s.cdc.queue = [] → c.resp = s.cdc.resp ∧ c.iflag = s.cdc.iflag)) := by
  intro c
  have slot : c = (discAdvance (s.params.cpiPred + 1) (s.answered q k)).cdc :=
    (lateSlots_cdc _).trans (discAdvance_cdc_congr rfl rfl)
  refine ⟨slot, fun later => ?_⟩
  have alone (h : q = []) :
      c = { (s.answered q k).cdc with queue := [⟨s.params.ackPred + 1 - (s.params.cpiPred + 1), k⟩] } := by
    subst h
    rw [slot, discAdvance_counts (e := ⟨s.params.ackPred + 1, k⟩) rfl (Nat.succ_lt_succ later)]
    rfl
  refine ⟨?queued, fun empty => ?silent⟩
  case queued =>
    cases q with
    | nil => rw [alone rfl]; exact ⟨_, List.mem_singleton_self _⟩
    | cons e q =>
      rw [slot]
      exact ⟨_, mem_queue_discAdvance rfl (List.mem_append_right q (List.mem_singleton_self _))⟩
  case silent => rw [alone (hq empty)]; exact ⟨rfl, rfl⟩

/-! ## The table of commands -/

/-- R520's row of a command: its instruction, its parameter counts, whether it needs a disc, and whether it takes the
motion events off the queue. -/
def CommandRow (i : Instr) (cmd : DiscCmd) (counts : List Nat) (needs flushes : Bool) : Prop :=
  (∀ s, exec i s = discCommand cmd s) ∧ cmd.counts = counts ∧ cmd.needsDisc = needs ∧ cmd.flushes = flushes

theorem validBcd_iff (b : Byte) : validBcd b = true ↔ ¬(9 < b.toNat / 16 ∨ 9 < b.toNat % 16) := by
  simp only [validBcd, Bool.and_eq_true, decide_eq_true_iff, toNat_field]
  omega

/-- Setloc's three parameters are BCD, seconds and frames within their ranges (R522). -/
theorem writeError_setloc (c : Cdc) (ps : List Byte) : c.writeError .setloc ps =
    if (∃ b ∈ ps, 9 < b.toNat / 16 ∨ 9 < b.toNat % 16) ∨ 0x59 < (ps.getD 1 0).toNat ∨ 0x74 < (ps.getD 2 0).toNat
    then some 0x10 else none := by
  simp only [Cdc.writeError]
  rw [← ite_not]
  refine if_congr ?_ rfl rfl
  simp only [Bool.and_eq_true, List.all_eq_true, validBcd_iff, decide_eq_true_iff, not_and_or, not_forall, not_not,
    not_le, exists_prop, or_assoc]

theorem toNat_le_one_iff (b : Byte) : b.toNat ≤ 1 ↔ b = 0 ∨ b = 1 := by
  rw [BitVec.toNat_eq, BitVec.toNat_eq]
  exact Nat.le_one_iff_eq_zero_or_eq_one

/-- A byte outside the table is no command. -/
theorem decodeDisc_unknown {b : Byte} (hb : b.toNat ∉ [1, 2, 3, 6, 7, 8, 9, 0xA, 0xB, 0xC, 0xD, 0xE, 0xF, 0x10, 0x11,
    0x13, 0x14, 0x15, 0x16, 0x19, 0x1A, 0x1B, 0x1E]) : decodeDisc b = .error .discCommand := by
  unfold decodeDisc
  split
  case h_24 => rfl
  all_goals rename_i h; simp [h] at hb

theorem discCommandByte_unknown {b : Byte} (hb : decodeDisc b = .error .discCommand) (s : State) :
    discCommandByte b s = .next (s.answered s.cdc.queue (.err 0x40)) := by
  rw [discCommandByte, hb]; rfl

/-- Settles O42: a command of the table queues what `answer` gives, a byte outside it the error 0x40; either waits for
its delay. -/
theorem discCommands : Obligations.DiscCommands := by
  unfold Obligations.DiscCommands
  intro answered waits
  have waiting (s : State) (q : List Event) (k : EventKind) (hq : s.cdc.queue = [] → q = []) :
      waits s (answered s q k) k := answered_waits s k hq
  refine ⟨fun s => ?known, fun b s hb => ?unknown, fun s d n e q hq due hi => ?error⟩
  case known =>
    intro ps stays p hp
    have row : CommandRow p.1 p.2.1 p.2.2.1 p.2.2.2.1 p.2.2.2.2 := by
      fin_cases hp <;> exact ⟨fun _ => rfl, rfl, rfl, rfl⟩
    obtain ⟨i, cmd, counts, needs, flushes⟩ := p
    obtain ⟨runs, rfl, rfl, rfl⟩ : CommandRow i cmd counts needs flushes := row
    intro bad a
    have errors : bad = s.cdc.writeError cmd ps := by
      cases cmd
      case setloc => exact (writeError_setloc s.cdc ps).symm
      case getlocL => exact (if_congr Option.isNone_iff_eq_none rfl rfl).symm
      case getTD => exact (if_congr (toNat_le_one_iff _) rfl rfl).symm
      all_goals rfl
    have left : stays = s.cdc.queue.filter (!·.kind.isMotion) := by
      refine List.filter_congr fun e _ => ?_
      cases e.kind <;> rfl
    have answer : a = s.cdc.answer cmd := by
      simp only [a, errors, left, Cdc.answer] <;> rfl
    rw [answer]
    exact ⟨(runs s).trans (discCommand_eq cmd s), waiting s _ _ (queue_answer_nil cmd)⟩
  case unknown => exact ⟨discCommandByte_unknown (decodeDisc_unknown hb) s, waiting s _ _ id⟩
  case error =>
    rw [discAdvance_delivers hq due hi rfl]
    exact ⟨rfl, rfl, rfl⟩

/-! ## A read, from its command to its sector (R524, R548) -/

/-- The acknowledge of a read with a target, told to an idle controller at single speed: reading starts at the target,
and the sector is queued behind a seek. -/
theorem deliver_readN {p : Params} {c : Cdc} {t : Int} (ht : c.target = some t) (hs : c.cmode.getLsbD 7 = false) :
    c.deliver p (.ack .readN []) = ({ c with
      dmode := .reading, pos := t, target := none, resp := [c.stat], iflag := 3
      queue := c.queue ++ [⟨p.seekPred + 1 + (p.readPred + 1), .sector⟩] }, true) := by
  have single : c.readDelay p = p.readPred + 1 := by rw [Cdc.readDelay, hs]; rfl
  simp [Cdc.deliver, Cdc.deliverAck, Cdc.startRead, Cdc.useTarget, Cdc.append, Cdc.respond, seekDelay, ht, single]

/-- The delivery of a sector to a reading controller. -/
theorem deliver_sector {p : Params} {c : Cdc} {sec : List Byte} (hm : c.dmode = .reading)
    (hs : c.sectorAt c.pos = some sec) : ∃ hdr q,
    c.deliver p .sector = ({ c with
      sector := some sec, hdr := hdr, pos := c.pos + 1, resp := [c.stat], iflag := 1, queue := q }, true) := by
  simp [Cdc.deliver, hm, hs, Cdc.append, Cdc.respond, Cdc.stat]

/-- The controller after the acknowledge of a read of sector `lba` that was told to an idle machine with an empty
queue. -/
def Cdc.readStarted (c : Cdc) (p : Params) (lba : Nat) : Cdc :=
  { c with
    dmode := .reading, pos := lba, target := none, param := [], resp := [c.stat], iflag := 3
    queue := [⟨p.seekPred + 1 + (p.readPred + 1), .sector⟩] }

/-- Settles O44: the command queues its acknowledge alone; delivered, that starts the read and queues the sector alone,
and over the unacknowledged kind nothing more is delivered. -/
theorem readOrdering : Obligations.ReadOrdering := by
  intro s lba d sec hd hsec ht hq hi hien hm hmotor hparam hcmode
  let c := s.cdc.readStarted s.params lba
  have command : exec .cdcReadN s = .next (s.answered [] (.ack .readN [])) := by
    have answer : s.cdc.answer .readN = ([], .ack .readN []) := by
      simp [Cdc.answer, hparam, hd, hq, Cdc.writeError, DiscCmd.counts, DiscCmd.flushes]
    have h := discCommand_eq .readN s
    rwa [answer] at h
  have acknowledged : discAdvance (s.params.ackPred + 1) (s.answered [] (.ack .readN [])) =
      (s.raiseIrq 2 (true && c.enabled)).setCdc c :=
    discAdvance_delivers rfl le_rfl hi (deliver_readN ht (congrArg (BitVec.getLsbD · 7) hcmode))
  have enabled : c.enabled = true := by simp [c, Cdc.enabled, Cdc.readStarted, hien]
  have status : s.cdc.stat = 0x02 := by simp [Cdc.stat, hm, hmotor, hd]
  refine ⟨_, _, command, hi, rfl, rfl, ?_⟩
  rw [acknowledged, enabled]
  refine ⟨rfl, congrArg ([·]) status, rfl, rfl, ?irq, rfl, fun n => ⟨?waits, ?sector⟩⟩
  case irq => simp
  case waits =>
    obtain ⟨-, -, kept, -⟩ := discWaitsForAcknowledge n ((s.raiseIrq 2 true).setCdc c) (show (3#3) ≠ 0 by decide)
    exact kept
  case sector =>
    obtain ⟨hdr, q, delivered⟩ := deliver_sector (p := s.params) (c := { c with iflag := 0, queue := [] }) (sec := sec)
      rfl (by simp [c, Cdc.sectorAt, Cdc.readStarted, hd, hsec])
    have reading : { c with iflag := 0, queue := [] }.stat = 0x22 := by simp [c, Cdc.readStarted, Cdc.stat, hmotor, hd]
    intro v
    have ready : v = _ := discAdvance_delivers rfl (by omega) rfl delivered
    rw [ready]
    exact ⟨rfl, congrArg ([·]) reading, rfl, rfl⟩

end Sys2Proof.Machine

/-!
PROOFS. The statements about the timers (60_exceptions.md R660 to R667) and the ordering-table clear (49_dma.md R574).
First what a count tick does to the count; then where the words of a table lie in RAM, and what each word's write
leaves of the others.
-/

namespace Sys2Proof.Machine

/-! ## Count ticks (R666) -/

namespace Timer

/-- Two timers agree on what the count runs by: the count, the target and the reset-at-target bit. -/
structure sameRun (t u : Timer) : Prop where
  count : u.count = t.count
  target : u.target = t.target
  rst : u.mode.getLsbD 3 = t.mode.getLsbD 3

theorem sameRun.trans {t u v : Timer} (h : t.sameRun u) (k : u.sameRun v) : t.sameRun v :=
  ⟨k.count.trans h.count, k.target.trans h.target, k.rst.trans h.rst⟩

theorem sameRun_irq (t : Timer) : t.sameRun t.irq.1 := by
  unfold irq
  split
  · exact ⟨rfl, rfl, rfl⟩
  · split
    · exact ⟨rfl, rfl, by simp⟩
    · exact ⟨rfl, rfl, rfl⟩

/-- A reached bit that is not the reset-at-target bit leaves the run as it is. -/
theorem sameRun_reach (t : Timer) (reached : Bool) {flag : BitVec 13} (enable : Nat) (hf : flag.getLsbD 3 = false) :
    t.sameRun (t.reach reached flag enable).1 := by
  unfold reach
  split
  · have flagged : t.sameRun { t with mode := t.mode ||| flag } :=
      ⟨rfl, rfl, by rw [BitVec.getLsbD_or, hf, Bool.or_false]⟩
    simp only []
    split
    · exact flagged.trans (sameRun_irq _)
    · exact flagged
  · exact ⟨rfl, rfl, rfl⟩

theorem sameRun_tick (t : Timer) :
    sameRun { t with count := if t.mode.getLsbD 3 && t.count == t.target then 0 else t.count + 1 } t.tick.1 :=
  (sameRun_reach _ _ _ rfl).trans (sameRun_reach _ _ _ rfl)

/-- With the reset-at-target bit the next count is the successor modulo `target + 1`, from a count up to the target. -/
theorem toNat_next_of_rst {c target : BitVec 16} (h : c.toNat ≤ target.toNat) :
    (if c == target then 0 else c + 1).toNat = (c.toNat + 1) % (target.toNat + 1) := by
  by_cases reached : c = target
  · subst reached
    simp
  · have below : c.toNat < target.toNat := lt_of_le_of_ne h fun e => reached (BitVec.eq_of_toNat_eq e)
    have room := target.isLt
    have next : (c + 1).toNat = c.toNat + 1 := by
      rw [BitVec.toNat_add]
      exact Nat.mod_eq_of_lt (show c.toNat + 1 < 2 ^ 16 by omega)
    rw [beq_eq_false_iff_ne.2 reached, if_neg Bool.false_ne_true, next, Nat.mod_eq_of_lt (by omega)]

/-- After `k` ticks from 0 a timer with its reset-at-target bit set stands at `k` modulo `target + 1`, else at `k`
modulo `2 ^ 16`; the target and the bit are as they were. -/
theorem ticks_run {t : Timer} (h0 : t.count = 0) (k : Nat) :
    (ticks k t).1.count.toNat = (if t.mode.getLsbD 3 then k % (t.target.toNat + 1) else k % 2 ^ 16) ∧
      (ticks k t).1.target = t.target ∧ (ticks k t).1.mode.getLsbD 3 = t.mode.getLsbD 3 := by
  induction k with
  | zero => simp [ticks, h0]
  | succ k ih =>
    obtain ⟨count, target, rst⟩ := ih
    have tick := sameRun_tick (ticks k t).1
    refine ⟨?_, tick.target.trans target, tick.rst.trans rst⟩
    rw [ticks, tick.count, rst, target]
    cases on : t.mode.getLsbD 3 with
    | true =>
      simp only [on, if_true, Bool.true_and] at count ⊢
      rw [toNat_next_of_rst (count ▸ Nat.le_of_lt_succ (Nat.mod_lt k (Nat.succ_pos _))), count, Nat.mod_add_mod]
    | false =>
      simp only [on, Bool.false_eq_true, if_false, Bool.false_and] at count ⊢
      rw [BitVec.toNat_add, count]
      exact Nat.mod_add_mod k (2 ^ 16) 1

end Timer

/-- Settles O45, by induction on the ticks. -/
theorem timerPeriod : Obligations.TimerPeriod := by
  intro t k h0
  obtain ⟨count, target, -⟩ := Timer.ticks_run h0 k
  exact ⟨count, target⟩

/-! ## The places of a table (R566) -/

theorem ramIndex_eq (a : Word) : ramIndex a = a.toNat % 0x200000 - a.toNat % 4 := by
  have low : a &&& 0x001FFFFC#32 = wordBase a &&& 0x001FFFFF#32 := (BitVec.and_assoc a 0xFFFFFFFC#32 0x001FFFFF#32).symm
  have wrap : (wordBase a &&& 0x001FFFFF#32).toNat = (wordBase a).toNat % 0x200000 :=
    Nat.and_two_pow_sub_one_eq_mod _ 21
  rw [ramIndex, low, wrap, toNat_wordBase]
  omega

/-- Where word `i` of a table from `madr` down falls in RAM. -/
def tablePlace (madr : Word) (i : Nat) : Nat := ramIndex (madr - BitVec.ofNat 32 (4 * i))

/-- Two words of a table do not overlap: RAM has more words than a table. -/
theorem tablePlace_disjoint (madr : Word) {i j : Nat} (hij : i < j) (hj : j < 0x10000) :
    tablePlace madr i + 4 ≤ tablePlace madr j ∨ tablePlace madr j + 4 ≤ tablePlace madr i := by
  have node (k : Nat) (hk : k < 0x10000) :
      (madr - BitVec.ofNat 32 (4 * k)).toNat = (madr.toNat + (2 ^ 32 - 4 * k)) % 2 ^ 32 := by
    rw [BitVec.toNat_sub, BitVec.toNat_ofNat, Nat.mod_eq_of_lt (show 4 * k < 2 ^ 32 by omega), Nat.add_comm]
  rw [tablePlace, tablePlace, ramIndex_eq, ramIndex_eq, node i (by omega), node j hj]
  omega

/-! ## A word of RAM -/

/-- The word written is the word read. -/
theorem wordAt_setRamWord {s : State} (a v : Word) (h : Memory.wf s.mem = true) :
    (setRamWord a v s).wordAt (ramIndex a) = v :=
  Memory.read_write_word (ramIndex a) v h

theorem byte_setRamWord {s : State} (a v : Word) {c : Nat} (h : c < ramIndex a ∨ ramIndex a + 4 ≤ c) :
    (setRamWord a v s).byte c = s.byte c :=
  Memory.readByte_write_other s.mem .word v h

theorem wordAt_congr {s t : State} {a : Nat} (h : ∀ k, k < 4 → t.byte (a + k) = s.byte (a + k)) :
    t.wordAt a = s.wordAt a := by
  have first : t.byte a = s.byte a := h 0 (by decide)
  rw [State.wordAt, State.wordAt, h 3 (by decide), h 2 (by decide), h 1 (by decide), first]

/-! ## The table, word by word (R574) -/

/-- What word `i` of a table of `n` words holds: the address of the word below, the last the terminator. -/
def tableWord (madr : Word) (n i : Nat) : Word :=
  if i + 1 = n then 0x00FFFFFF#32 else (madr - BitVec.ofNat 32 (4 * (i + 1))) &&& 0x001FFFFF#32

theorem clearWord_eq (madr : Word) (n i : Nat) (s : State) : clearWord madr n i s =
    .next (setRamWord (madr - BitVec.ofNat 32 (4 * i)) (tableWord madr n i) s) := by
  have below : madr - BitVec.ofNat 32 (4 * i) - 4#32 = madr - BitVec.ofNat 32 (4 * (i + 1)) := by
    rw [Nat.mul_succ, BitVec.ofNat_add]
    exact sub_sub _ _ _
  rw [clearWord, tableWord, ← below]

/-- The first `k` words of a table of `n` words stand in RAM, and only they have been written since `s`. -/
structure Cleared (s : State) (madr : Word) (n k : Nat) (t : State) : Prop where
  frame : s.changesOnly [.mem] t
  wf : Memory.wf t.mem = true
  words : ∀ i, i < k → t.wordAt (tablePlace madr i) = tableWord madr n i
  kept : ∀ c, (∀ i, i < k → c < tablePlace madr i ∨ tablePlace madr i + 4 ≤ c) → t.byte c = s.byte c

/-- The next word of the table, none of the words before it touched. -/
theorem Cleared.next {s t : State} {madr : Word} {n k : Nat} (c : Cleared s madr n k t) (hk : k < 0x10000) :
    Cleared s madr n (k + 1) (setRamWord (madr - BitVec.ofNat 32 (4 * k)) (tableWord madr n k) t) where
  frame := changesOnly_trans c.frame (changesOnly_setMem _ _)
  wf := Memory.wf_write _ .word _ c.wf
  words i hi := by
    rcases Nat.lt_succ_iff_lt_or_eq.mp hi with hi | rfl
    · rw [← c.words i hi]
      refine wordAt_congr fun j hj => byte_setRamWord _ _ ?_
      have apart := tablePlace_disjoint madr hi hk
      unfold tablePlace at apart ⊢
      omega
    · exact wordAt_setRamWord _ _ c.wf
  kept b hb :=
    (byte_setRamWord _ _ (hb k (Nat.lt_succ_self k))).trans (c.kept b fun i hi => hb i (Nat.lt_succ_of_lt hi))

/-- The whole table. -/
theorem repeatOut_clearWord {s : State} (h : s.memoryCanonical = true) (madr : Word) {n : Nat} (hn : n ≤ 0x10000) :
    ∃ t, repeatOut n (clearWord madr n) s = .next t ∧ Cleared s madr n n t :=
  repeatOut_next (P := Cleared s madr n)
    (fun k u hk c => ⟨_, clearWord_eq madr n k u, c.next (by omega)⟩)
    ⟨changesOnly_refl _ s, h, fun i hi => absurd hi (Nat.not_lt_zero i), fun _ _ => rfl⟩

/-! ## Completion (R572) -/

/-- Completion clears START, so the channel is active no longer. -/
theorem active_complete {n : Nat} (hn : n < 7) (s : State) : (complete n s).dma.active n = false := by
  have chan : (complete n s).dma.chan n =
      { s.dma.chan n with chcr := (s.dma.chan n).chcr &&& ~~~0x11000000#32 } := by
    refine (chan_setChan s.dma n n _).trans (if_pos ⟨rfl, hn⟩)
  simp [Dma.active, chan]

/-- Settles O46: the loop writes the table, completion touches the engine and I_STAT alone. -/
theorem orderingTable : Obligations.OrderingTable := by
  intro s hs ha bc n node place
  have size : countField (bitsAt (s.dma.chan 6).bcr 0 16) = n := countField_toNat _
  have small : n ≤ 0x10000 := by
    have := bc.isLt
    simp only [n]
    split <;> omega
  obtain ⟨t, loop, table⟩ := repeatOut_clearWord hs ((s.dma.chan 6).madr.setWidth 32) small
  have done : dmaChannel 6 s = .next (complete 6 t) := by
    rw [dmaChannel_active ha]
    show clearTable s = _
    rw [clearTable, size, loop]
    rfl
  exact ⟨_, done, active_complete (by decide) t,
    changesOnly_trans (changesOnly_mono table.frame (by simp))
      (changesOnly_mono (changesOnly_setDmaEdge t _) (by simp)),
    table.words, table.kept⟩

end Sys2Proof.Machine

/-!
PROOFS. The statement about the device registers (60_exceptions.md R622, R661 to R665, 49_dma.md R561 to R568,
48_cdrom_commands.md R501 to R510). First the row of the address map that a register's address falls in; then a bus
access of each device as one of its register functions; then the disc's status bits and data request.
-/

namespace Sys2Proof.Machine

/-! ## Addresses of registers -/

theorem addressMap_fits : ∀ r ∈ addressMap, r.base + r.size ≤ 2 ^ 32 := by decide

/-- The register at an offset in a row. -/
def Region.at (r : Region) (off : Nat) : Word := BitVec.ofNat 32 (r.base + off)

theorem toNat_at {r : Region} (hr : r ∈ addressMap) {off : Nat} (h : off < r.size) : (r.at off).toNat = r.base + off :=
  Nat.mod_eq_of_lt (lt_of_lt_of_le (Nat.add_lt_add_left h r.base) (addressMap_fits r hr))

/-- An access inside a row, of a width its device takes and at a register's own address, is the row's. -/
theorem owner_at {r : Region} (hr : r ∈ addressMap) {off : Nat} {n : Width} (hin : off + n.bytes ≤ r.size)
    (ht : r.owner.takes n = true) (ha : off % 4 = 0 ∨ r.owner = .disc) : owner (r.at off) n = some r := by
  have hn : 0 < n.bytes := by cases n <;> decide
  have address : (r.at off).toNat = r.base + off := toNat_at hr (by omega)
  have row : resolve (r.base + off) n.bytes = some r :=
    resolve_of_holds hr hn ((Region.holds_iff _ _ _).mpr ⟨Nat.le_add_right _ _, by omega⟩)
  simp only [owner, address, row, ht, if_true, Nat.add_sub_cancel_left]
  rcases ha with ha | ha
  · rw [if_pos ha]; cases r.owner <;> rfl
  · rw [ha]

theorem offset_at {r : Region} (hr : r ∈ addressMap) {off : Nat} (h : off < r.size) :
    (r.at off).toNat - r.base = off := by
  rw [toNat_at hr h, Nat.add_sub_cancel_left]

/-- The rows of the devices with registers (20_memory.md R83). -/
def intcRow : Region := ⟨0x1F801070, 0x8, .intc⟩
def dmaRow : Region := ⟨0x1F801080, 0x80, .dma⟩
def timersRow : Region := ⟨0x1F801100, 0x30, .timers⟩
def discRow : Region := ⟨0x1F801800, 0x4, .disc⟩

theorem four_bytes (n : Width) : n.bytes ≤ 4 := by cases n <;> decide

/-! ## The interrupt controller (R622) -/

section
variable {off : Nat} {n : Width} (hoff : off = 0 ∨ off = 4) (hn : n ≠ .byte) (v : Word) (s : State)
include hoff hn

theorem owner_intc : owner (intcRow.at off) n = some intcRow :=
  owner_at (by decide) (by have := four_bytes n; simp only [intcRow]; omega) (bne_iff_ne.2 hn) (.inl (by omega))

theorem busRead_intc : busRead (intcRow.at off) n s =
    .ok ((if off = 0 then s.intc.istat else s.intc.imask).setWidth 32, s) := by
  rw [busRead, owner_intc hoff hn]
  simp only [offset_at (r := intcRow) (by decide) (show off < 8 by omega)]
  rfl

theorem busWrite_intc : busWrite (intcRow.at off) n v s =
    if off = 0 then .next (s.setIntc { s.intc with istat := s.intc.istat &&& v.extractLsb' 0 11 })
    else .next (s.setIntc { s.intc with imask := v.extractLsb' 0 11 }) := by
  rw [busWrite, owner_intc hoff hn]
  simp only [offset_at (r := intcRow) (by decide) (show off < 8 by omega)]
  rfl

end

/-! ## The timers (R661) -/

section
variable {k off : Nat} {n : Width} (hk : k < 3) (hoff : off = 0 ∨ off = 4 ∨ off = 8) (hn : n ≠ .byte) (v : Word)
  (s : State)
include hk hoff

theorem timer_latch : deviceLatch (timersRow.at (0x10 * k + off)).toNat = false := by
  have address : (timersRow.at (0x10 * k + off)).toNat = 0x1F801100 + (0x10 * k + off) :=
    toNat_at (by decide) (by simp only [timersRow]; omega)
  rw [address, ← Bool.not_eq_true]
  simp only [deviceLatch, Bool.or_eq_true, Bool.and_eq_true, decide_eq_true_iff]
  omega

include hn

theorem owner_timers : owner (timersRow.at (0x10 * k + off)) n = some timersRow :=
  owner_at (by decide) (by have := four_bytes n; simp only [timersRow]; omega) (bne_iff_ne.2 hn) (.inl (by omega))

theorem busRead_timer : busRead (timersRow.at (0x10 * k + off)) n s =
    .ok (((s.timers.get k).readReg off).1.setWidth 32,
      s.setTimers (s.timers.set k ((s.timers.get k).readReg off).2)) := by
  have number : (0x10 * k + off) / 16 = k := by omega
  have register : (0x10 * k + off) % 16 = off := by omega
  rw [busRead, owner_timers hk hoff hn]
  simp only [offset_at (r := timersRow) (by decide) (show 0x10 * k + off < 0x30 by omega), timer_latch hk hoff, number,
    register]
  rfl

theorem busWrite_timer : busWrite (timersRow.at (0x10 * k + off)) n v s =
    .next (s.setTimers (s.timers.set k ((s.timers.get k).writeReg off v))) := by
  have number : (0x10 * k + off) / 16 = k := by omega
  have register : (0x10 * k + off) % 16 = off := by omega
  rw [busWrite, owner_timers hk hoff hn]
  simp only [offset_at (r := timersRow) (by decide) (show 0x10 * k + off < 0x30 by omega), timer_latch hk hoff, number,
    register]
  rfl

end

/-! ## The engine (R561, R562, R568) -/

section
variable {off : Nat} (hoff : off % 4 = 0) (hreg : off < 0x70 ∧ off % 16 < 12 ∨ off = 0x70 ∨ off = 0x74) (v : Word)
  (s : State)
include hoff hreg

theorem engine_latch : deviceLatch (dmaRow.at off).toNat = false := by
  have address : (dmaRow.at off).toNat = 0x1F801080 + off := toNat_at (by decide) (by simp only [dmaRow]; omega)
  rw [address, ← Bool.not_eq_true]
  simp only [deviceLatch, Bool.or_eq_true, Bool.and_eq_true, decide_eq_true_iff]
  omega

theorem owner_engine : owner (dmaRow.at off) .word = some dmaRow :=
  owner_at (by decide) (by simp only [dmaRow, Width.bytes]; omega) rfl (.inl hoff)

theorem busRead_engine : busRead (dmaRow.at off) .word s = .ok (s.dma.readReg off, s) := by
  rw [busRead, owner_engine hoff hreg]
  simp only [offset_at (r := dmaRow) (by decide) (show off < 0x80 by omega), engine_latch hoff hreg]
  rfl

theorem busWrite_engine : busWrite (dmaRow.at off) .word v s = .next (setDmaEdge (s.dma.writeReg off v) s) := by
  rw [busWrite, owner_engine hoff hreg]
  simp only [offset_at (r := dmaRow) (by decide) (show off < 0x80 by omega), engine_latch hoff hreg]
  rfl

end

/-- Replacing the engine by one with the same DICR raises nothing. -/
theorem setDmaEdge_of_dicr {d : Dma} {s : State} (h : d.dicr = s.dma.dicr) : setDmaEdge d s = s.setDma d := by
  have level : d.master = s.dma.master := by simp only [Dma.master, h]
  rw [setDmaEdge, level, Bool.and_not_self, raiseIrq_false]

/-! ## The disc ports (R501) -/

theorem owner_disc {off : Nat} (h : off < 4) : owner (discRow.at off) .byte = some discRow :=
  owner_at (by decide) (by simp only [discRow, Width.bytes]; omega) rfl (.inr rfl)

theorem busRead_disc {off : Nat} (h : off < 4) (s : State) :
    busRead (discRow.at off) .byte s = .ok (discRead off s) := by
  rw [busRead, owner_disc h]
  simp only [offset_at (r := discRow) (by decide) h]
  rfl

theorem busWrite_disc {off : Nat} (h : off < 4) (v : Word) (s : State) :
    busWrite (discRow.at off) .byte v s = discWrite off (v.extractLsb' 0 8) s := by
  rw [busWrite, owner_disc h]
  simp only [offset_at (r := discRow) (by decide) h]
  rfl

/-- The bits of the status register (R503), one for each condition. -/
theorem statusBits : ∀ (ix : BitVec 2) (b3 b4 b5 b6 b7 : Bool),
    let x := ix.setWidth 8 ||| (if b3 then 0x08#8 else 0) ||| (if b4 then 0x10#8 else 0) |||
      (if b5 then 0 else 0x20#8) ||| (if b6 then 0 else 0x40#8) ||| (if b7 then 0x80#8 else 0)
    x.extractLsb' 0 2 = ix ∧ x.getLsbD 2 = false ∧ x.getLsbD 3 = b3 ∧ x.getLsbD 4 = b4 ∧ x.getLsbD 5 = !b5 ∧
      x.getLsbD 6 = !b6 ∧ x.getLsbD 7 = b7 := by decide

theorem readStatus_fields (c : Cdc) : c.readStatus.extractLsb' 0 2 = c.ix ∧ c.readStatus.getLsbD 2 = false ∧
    c.readStatus.getLsbD 3 = decide (c.param = []) ∧ c.readStatus.getLsbD 4 = decide (c.param.length < 16) ∧
    c.readStatus.getLsbD 5 = decide (c.resp ≠ []) ∧ c.readStatus.getLsbD 6 = decide (c.data ≠ []) ∧
    (c.readStatus.getLsbD 7 = true ↔
      ∃ e ∈ c.queue, (∃ cmd ps, e.kind = .ack cmd ps) ∨ ∃ k, e.kind = .err k) := by
  have bits := statusBits c.ix c.param.isEmpty (decide (c.param.length < 16)) c.resp.isEmpty c.data.isEmpty
    (c.queue.any (·.kind.isFirst))
  simp only [decide_eq_true_iff] at bits
  obtain ⟨h01, h2, h3, h4, h5, h6, h7⟩ := bits
  have empty {α : Type} (l : List α) [DecidableEq α] : l.isEmpty = decide (l = []) := by cases l <;> rfl
  have isFirst (k : EventKind) : k.isFirst = true ↔ (∃ cmd ps, k = .ack cmd ps) ∨ ∃ e, k = .err e := by
    cases k <;> simp [EventKind.isFirst]
  refine ⟨h01, h2, h3.trans (empty _), h4, h5.trans ?_, h6.trans ?_, ?_⟩
  · rw [empty, decide_not]
  · rw [empty, decide_not]
  · rw [Cdc.readStatus, h7, List.any_eq_true]
    simp only [isFirst]

/-- A data request fills an empty data FIFO from the sector buffer (R507). -/
theorem request_sector {c : Cdc} {v : Byte} {sec : List Byte} (hv : v.getLsbD 7 = true) (hs : c.sector = some sec) :
    c.request v = { c with
      data :=
        if c.data ≠ [] then c.data
        else if c.cmode.getLsbD 5 then (sec.drop 12).take 0x924 else (sec.drop 24).take 0x800 } := by
  have request : c.request v = if c.data.isEmpty then { c with data := c.user sec } else c := by
    simp only [Cdc.request, hv, hs, if_true]
  rw [request]
  by_cases empty : c.data = []
  · rw [if_pos (List.isEmpty_iff.2 empty), if_neg (not_not.2 empty)]
    rfl
  · rw [if_neg (mt List.isEmpty_iff.1 empty), if_pos empty]

/-- A request without a sector does nothing, and a write without the request bit clears the data FIFO (R507). -/
theorem request_none {c : Cdc} {v : Byte} (hv : v.getLsbD 7 = true) (hs : c.sector = none) : c.request v = c := by
  simp only [Cdc.request, hv, hs, if_true]

theorem request_clear {c : Cdc} {v : Byte} (hv : v.getLsbD 7 = false) : c.request v = { c with data := [] } := by
  simp only [Cdc.request, hv, Bool.false_eq_true, if_false]

/-- The two upper ports under index 0 (R506, R507). -/
theorem writePort_index_zero {c : Cdc} (h : c.ix = 0) (v : Byte) :
    c.writePort 2 v = { c with param := if c.param.length < 16 then c.param ++ [v] else c.param } ∧
      c.writePort 3 v = c.request v := by
  have index : c.ix.toNat = 0 := congrArg BitVec.toNat h
  simp only [Cdc.writePort, index, and_true]
  split <;> rfl

/-- The two upper ports under index 1 (R508, R509). -/
theorem writePort_index_one {c : Cdc} (h : c.ix = 1) (v : Byte) :
    c.writePort 2 v = { c with ien := v.extractLsb' 0 5 } ∧ c.writePort 3 v = c.acknowledge v := by
  have index : c.ix.toNat = 1 := congrArg BitVec.toNat h
  simp only [Cdc.writePort, index, and_self]

/-- A mode write stores the low ten bits, sets the interrupt request line and leaves the two reached bits (R664). -/
theorem writeMode_mode (t : Timer) (v : Word) : (t.writeMode v).mode.extractLsb' 0 10 = v.extractLsb' 0 10 ∧
    (t.writeMode v).mode.getLsbD 10 = true ∧ (t.writeMode v).mode.extractLsb' 11 2 = t.mode.extractLsb' 11 2 := by
  refine ⟨?_, ?_, ?_⟩
  · ext i hi
    interval_cases i <;> simp [Timer.writeMode]
  · simp [Timer.writeMode]
  · ext i hi
    interval_cases i <;> simp [Timer.writeMode]

/-- The three registers of a channel (R561). -/
theorem readReg_channel {n : Nat} (hn : n < 7) (d : Dma) :
    d.readReg (0x10 * n + 0) = (d.chan n).madr.setWidth 32 ∧ d.readReg (0x10 * n + 4) = (d.chan n).bcr ∧
      d.readReg (0x10 * n + 8) = d.readChcr n := by
  interval_cases n <;> exact ⟨rfl, rfl, rfl⟩

theorem writeReg_channel {n : Nat} (hn : n < 7) (d : Dma) (v : Word) :
    d.writeReg (0x10 * n + 0) v = d.setChan n { d.chan n with madr := v.setWidth 24 } ∧
      d.writeReg (0x10 * n + 4) v = d.setChan n { d.chan n with bcr := v } ∧
      d.writeReg (0x10 * n + 8) v = d.setChan n { d.chan n with chcr := v &&& chcrMask n } := by
  interval_cases n <;> exact ⟨rfl, rfl, rfl⟩

/-- A write to a register of a channel replaces the channel alone. -/
theorem setDmaEdge_setChan (s : State) (n : Nat) (c : Channel) :
    setDmaEdge (s.dma.setChan n c) s = s.setDma (s.dma.setChan n c) := setDmaEdge_of_dicr rfl

/-- I_STAT after an edge of DICR bit 31 (R568). -/
theorem rise_eq (istat : BitVec 11) (after before : Bool) :
    istat ||| (BitVec.ofBool (after && !before)).setWidth 11 <<< 3 =
      if after = true ∧ before = false then istat ||| 8#11 else istat := by
  cases after <;> cases before <;> simp

/-- Settles O20, device by device: each access is one of the device's register functions. -/
theorem deviceRegisters : Obligations.DeviceRegisters := by
  refine ⟨fun v n s hn => ?intc, fun k w v s hk hw => ?timers, fun n v s hn => ?channels, fun v s => ?engine,
    fun v s => ?disc⟩
  case intc =>
    exact ⟨busRead_intc (.inl rfl) hn s, busRead_intc (.inr rfl) hn s,
      ⟨_, busWrite_intc (.inl rfl) hn v s, changesOnly_setIntc s _, rfl, rfl⟩,
      ⟨_, busWrite_intc (.inr rfl) hn v s, changesOnly_setIntc s _, rfl, rfl⟩⟩
  case timers =>
    intro t at'
    have here (off : Nat) : at' off = timersRow.at (0x10 * k + off) := congrArg (BitVec.ofNat 32) (Nat.add_assoc _ _ _)
    have mode : (t.mode.setWidth 16).setWidth 32 = t.mode.setWidth 32 := by simp
    simp only [here]
    refine ⟨busRead_timer hk (.inl rfl) hw s, busRead_timer hk (.inr (.inr rfl)) hw s, ?mode,
      busWrite_timer hk (.inl rfl) hw v s, busWrite_timer hk (.inr (.inr rfl)) hw v s,
      _, busWrite_timer hk (.inr (.inl rfl)) hw v s, writeMode_mode t v⟩
    rw [← mode]
    exact busRead_timer hk (.inr (.inl rfl)) hw s
  case channels =>
    intro c at' sets
    have here (off : Nat) : at' off = dmaRow.at (0x10 * n + off) := congrArg (BitVec.ofNat 32) (Nat.add_assoc _ _ _)
    have reads (off : Nat) (ho : off ∈ [0, 4, 8]) :
        busRead (at' off) .word s = .ok (s.dma.readReg (0x10 * n + off), s) := by
      simp only [List.mem_cons, List.not_mem_nil, or_false] at ho
      rw [here]
      exact busRead_engine (by omega) (.inl (by omega)) s
    have writes (off : Nat) (ho : off ∈ [0, 4, 8]) :
        busWrite (at' off) .word v s = .next (setDmaEdge (s.dma.writeReg (0x10 * n + off) v) s) := by
      simp only [List.mem_cons, List.not_mem_nil, or_false] at ho
      rw [here]
      exact busWrite_engine (by omega) (.inl (by omega)) v s
    obtain ⟨r0, r4, r8⟩ := readReg_channel hn s.dma
    obtain ⟨w0, w4, w8⟩ := writeReg_channel hn s.dma v
    refine ⟨(reads 0 (by simp)).trans (by rw [r0]), (reads 4 (by simp)).trans (by rw [r4]),
      (reads 8 (by simp)).trans (by rw [r8]; rfl), (writes 0 (by simp)).trans ?_, (writes 4 (by simp)).trans ?_,
      (writes 8 (by simp)).trans ?_⟩
    · rw [w0, setDmaEdge_setChan, BitVec.setWidth_eq_extractLsb' (by decide)]
    · rw [w4, setDmaEdge_setChan]
    · rw [w8, setDmaEdge_setChan]; rfl
  case engine =>
    intro master
    have level (d : Dma) : master d.dicr = d.master := rfl
    refine ⟨busRead_engine (off := 0x70) rfl (.inr (.inl rfl)) s,
      (busWrite_engine (off := 0x70) rfl (.inr (.inl rfl)) v s).trans (congrArg _ (setDmaEdge_of_dicr rfl)),
      (busRead_engine (off := 0x74) rfl (.inr (.inr rfl)) s).trans ?_, _, _,
      busWrite_engine (off := 0x74) rfl (.inr (.inr rfl)) v s, changesOnly_setDmaEdge s _, rfl, rfl, rfl, rise_eq _ _ _⟩
    rw [level]
    show Except.ok (s.dma.dicr ||| bitWord 31 s.dma.master, s) = _
    cases s.dma.master <;> rfl
  case disc =>
    intro c b reads writes sets
    have index : ∀ ix : BitVec 2, ix.getLsbD 0 = true ↔ ix = 1 ∨ ix = 3 := by decide
    have low (n : Nat) (hn : n ≤ 8) : b.extractLsb' 0 n = v.extractLsb' 0 n :=
      BitVec.extractLsb'_extractLsb'_of_le (by omega)
    have port (off : Nat) (h4 : off < 4) (h1 : ¬(off = 1 ∧ c.ix = 0)) : sets off (c.writePort off b) :=
      (busWrite_disc h4 v s).trans (if_neg h1)
    refine ⟨⟨c.readStatus, busRead_disc (by decide) s, readStatus_fields c⟩, busRead_disc (by decide) s,
      busRead_disc (by decide) s, ?flag, ?index,
      fun h0 => ⟨?command, ?parameter, fun hb => ?empty, fun hb sec hs => ?fill, fun hb hs => ?none⟩,
      fun h1 => ⟨?enable, ?acknowledge⟩⟩
    case flag =>
      refine (busRead_disc (off := 3) (by decide) s).trans ?_
      simp only [discRead, Cdc.readPort, index]
      split <;> rfl
    case index =>
      rw [← low 2 (by decide)]
      exact port 0 (by decide) (by simp)
    case command => exact (busWrite_disc (by decide) v s).trans (if_pos ⟨rfl, h0⟩)
    case parameter =>
      rw [← (writePort_index_zero h0 b).1]
      exact port 2 (by decide) (by simp)
    case empty =>
      rw [← request_clear hb, ← (writePort_index_zero h0 b).2]
      exact port 3 (by decide) (by simp)
    case fill =>
      rw [← request_sector hb hs, ← (writePort_index_zero h0 b).2]
      exact port 3 (by decide) (by simp)
    case none =>
      have kept := port 3 (by decide) (by simp)
      rwa [(writePort_index_zero h0 b).2, request_none hb hs] at kept
    case enable =>
      rw [← low 5 (by decide), ← (writePort_index_one h1 b).1]
      exact port 2 (by decide) (by simp)
    case acknowledge =>
      rw [← low 3 (by decide)]
      have written := port 3 (by decide) (by simp)
      rwa [(writePort_index_one h1 b).2] at written

end Sys2Proof.Machine
